-- ==== Sys2Proof/Word.lean ====
section
/-! DEFINITION. The widths of 00_scope.md R10 and the byte strings of R11. -/

namespace Sys2Proof

/-- `u8` (R10); a byte. -/
abbrev Byte := BitVec 8

/-- `u16` (R10). -/
abbrev Half := BitVec 16

/-- `u32` (R10); a `DeviceIdentifier` is one (R22). -/
abbrev Word := BitVec 32

/-- A byte string: a finite list of bytes, index 0 first (R11). -/
abbrev ByteString := List Byte

/-- A text string: a byte string of ASCII characters (R11). -/
abbrev Text := List Byte

/-- The text a Lean literal spells, one byte a character (R11). -/
def text (s : String) : Text := s.toList.map fun c => BitVec.ofNat 8 c.toNat

end Sys2Proof
end

