-- ==== Sys2Proof/Config.lean ====
section
/-! DEFINITION. The constants of 00_scope.md R7 and the parameters of R8. A `Config` is a field of the machine's
state that no step writes (log 9), so that a claim about every state is a claim about every parameter value. -/

namespace Sys2Proof

/-- `SYNC` (R7), the first byte of every frame. -/
def sync : Byte := 0x55

/-- `DATA_LEN_MAX` (R7). -/
def dataLenMax : Nat := 65535

/-- `OPT_LEN_MAX` (R7). -/
def optLenMax : Nat := 255

/-- `FRAME_MIN` (R7), the least length of a serialized frame. -/
def frameMin : Nat := 7

/-- The greatest `user_data` that `ERP1.ENCODE` accepts, 65535 - 6 (R264). -/
def userDataMax : Nat := 65529

/-- `GAP` (R7), 100 ms, written in nanoseconds (log 11). -/
def gapNs : Nat := 100000000

/-- `DID_BROADCAST` (R7). -/
def didBroadcastId : Word := 0xFFFFFFFF

/-- `ERP1_TX_RSSI` (R7, R267). -/
def erp1TxRssi : Byte := 0xFF

/-- `ERP1_TX_SECLVL` (R7, R267). -/
def erp1TxSecLvl : Byte := 0x03

/-- `PT_RADIO_ERP1` (R7). -/
def ptRadioErp1 : Byte := 0x01

/-- `SP_UNKNOWN_PT` (R8, R231). -/
inductive UnknownPt where
  /-- The Frame is not emitted. -/
  | drop
  /-- The Frame is emitted with the raw byte. -/
  | emitRaw
  deriving DecidableEq, Repr

/-- The parameters of R8. -/
structure Config where
  /-- `PT_CODES` with `PT_NAMES`: the packet-type codes and their mnemonics (R165). -/
  ptTable : List (Byte × Text)
  /-- `RORG_CODES` with `RORG_NAMES` (R166). -/
  rorgTable : List (Byte × Text)
  /-- `SP_UNKNOWN_PT` (R231). -/
  spUnknownPt : UnknownPt
  /-- `ERP1_STRICT_RORG` (R262). -/
  erp1StrictRorg : Bool
  /-- `TIME_UNIT`: how many nanoseconds one unit of a time stamp is (R288, log 11). -/
  timeUnitNs : Nat
  /-- `OUTQ_DEPTH`: the capacity of the hand-off queue, `none` for unbounded (R32, log 12). -/
  outqDepth : Option Nat
  /-- `PBUF_MAX`: the capacity of the payload buffer (R30, log 14). -/
  pbufMax : Nat
  /-- `IN_MAX`: the greatest length of a byte-string operand of a one-shot operation, `none` for
  unbounded (R50, log 13). -/
  inMax : Option Nat
  deriving DecidableEq, Repr

end Sys2Proof
end

