-- ==== Sys2Proof/Syntax.lean ====
section
/-! DEFINITION. The value types of 10_state.md section 2 and the instructions: one constructor of `Instr` for each row of
spec/opcode_table.json (24 operations and events, 13 stream-parser transitions; 00_scope.md R9). -/

namespace Sys2Proof

/-- `Frame` (R23): the lengths are computed from the two strings, never stored. -/
structure Frame where
  packetType : Byte
  data : ByteString
  optData : ByteString
  deriving DecidableEq, Repr

/-- `Erp1Packet` (R25). -/
structure Erp1Packet where
  destinationId : Word
  senderId : Word
  rorg : Byte
  rssi : Byte
  securityLevel : Byte
  status : Byte
  subTelNum : Byte
  userData : ByteString
  deriving DecidableEq, Repr

/-- The five values of the stream parser's state register `st` (R27, log 17). -/
inductive PState where
  /-- WaitSync -/
  | ws
  /-- WaitHeader -/
  | wh
  /-- WaitHeaderChecksum -/
  | whc
  /-- WaitData -/
  | wd
  /-- WaitDataChecksum -/
  | wdc
  deriving DecidableEq, Repr

/-- The thirteen transitions of R99, by name. -/
inductive Transition where
  | wsSync | wsSkip | whAcc | whcOk | whcZeroSync | whcZero | whcResyncNone | whcResyncCur
  | whcResyncBuf | wdAcc | wdcSync | wdcOk | wdcBad
  deriving DecidableEq, Repr

/-- The instructions. An operation carries its operands (R9, D1); a transition carries the byte it
processes, except where its key fixes that byte to 0x55 (R99, mask 0x7FF). -/
inductive Instr where
  /-- `CRC.STEP(byte, running_checksum)`, R124. -/
  | crcStep (byte crc : Byte)
  /-- `CRC.FOLD(bytes)`, R125. -/
  | crcFold (bytes : ByteString)
  /-- `DID.TO_BYTES(id)`, R141. -/
  | didToBytes (id : Word)
  /-- `DID.TO_STRING(id)`, R142. -/
  | didToString (id : Word)
  /-- `DID.FROM_HEX(s)`, R144. -/
  | didFromHex (str : Text)
  /-- `DID.FROM_BYTES(b)`, R143. -/
  | didFromBytes (bytes : ByteString)
  /-- `DID.BROADCAST()`, R145. -/
  | didBroadcast
  /-- `DID.FROM_U32(n)`, R140. -/
  | didFromU32 (n : Word)
  /-- `PT.PARSE_BYTE(b)`, R161. -/
  | ptParseByte (b : Byte)
  /-- `PT.FORMAT(v)`, R162. -/
  | ptFormat (v : Byte)
  /-- `RORG.PARSE_BYTE(b)`, R163. -/
  | rorgParseByte (b : Byte)
  /-- `RORG.FORMAT(v)`, R164. -/
  | rorgFormat (v : Byte)
  /-- `FRAME.SERIALIZE(f)`, R182. -/
  | frameSerialize (f : Frame)
  /-- `FRAME.PARSE(bytes)`, R185. -/
  | frameParse (bytes : ByteString)
  /-- `FRAME.FROM_PARTS(packet_type, data, opt_data)`, R180. -/
  | frameFromParts (pt : Byte) (data optData : ByteString)
  /-- `FRAME.PARSE_HEX(s)`, R190. -/
  | frameParseHex (str : Text)
  /-- `FRAME.SERIALIZE_HEX(f)`, R191. -/
  | frameSerializeHex (f : Frame)
  /-- `SP.READ(t, bytes)`, R233. -/
  | spRead (t : Nat) (bytes : ByteString)
  /-- `SP.READ_ERR(t, info)`, R236. -/
  | spReadErr (t : Nat) (info : Text)
  /-- `SP.STOP`, R238. -/
  | spStop
  /-- `SP.RESET`, R239. -/
  | spReset
  /-- `ERP1.DECODE(f)`, R261. -/
  | erp1Decode (f : Frame)
  /-- `ERP1.ENCODE(p)`, R263. -/
  | erp1Encode (p : Erp1Packet)
  /-- `ERP1.SERIALIZE(p)`, R265. -/
  | erp1Serialize (p : Erp1Packet)
  /-- `SP.WS.SYNC`, R212. -/
  | spWsSync
  /-- `SP.WS.SKIP`, R213. -/
  | spWsSkip (b : Byte)
  /-- `SP.WH.ACC`, R214. -/
  | spWhAcc (b : Byte)
  /-- `SP.WHC.OK`, R216. -/
  | spWhcOk (b : Byte)
  /-- `SP.WHC.ZERO_SYNC`, R217. -/
  | spWhcZeroSync
  /-- `SP.WHC.ZERO`, R218. -/
  | spWhcZero (b : Byte)
  /-- `SP.WHC.RESYNC_NONE`, R220. -/
  | spWhcResyncNone (b : Byte)
  /-- `SP.WHC.RESYNC_CUR`, R221. -/
  | spWhcResyncCur
  /-- `SP.WHC.RESYNC_BUF`, R222. -/
  | spWhcResyncBuf (b : Byte)
  /-- `SP.WD.ACC`, R224. -/
  | spWdAcc (b : Byte)
  /-- `SP.WDC.SYNC`, R226. -/
  | spWdcSync
  /-- `SP.WDC.OK`, R227. -/
  | spWdcOk (b : Byte)
  /-- `SP.WDC.BAD`, R228. -/
  | spWdcBad (b : Byte)
  deriving DecidableEq, Repr

end Sys2Proof
end

