-- ==== Sys2Proof/WellFormed.lean ====
section
/-! DEFINITION. Which instruction terms are well formed: the byte of a transition meets the condition 30_encoding.md R99
puts on it. Operands of operations are well formed by their types (R292: an operand of the wrong type cannot be written). -/

namespace Sys2Proof

/-- The transitions that R99 selects only for `b != 0x55`. -/
def Instr.wf : Instr → Bool
  | .spWsSkip b => b != sync
  | .spWhcZero b => b != sync
  | .spWhcResyncNone b => b != sync
  | .spWdcOk b => b != sync
  | .spWdcBad b => b != sync
  | .crcStep _ _ | .crcFold _ => true
  | .didToBytes _ | .didToString _ | .didFromHex _ | .didFromBytes _ | .didBroadcast | .didFromU32 _ => true
  | .ptParseByte _ | .ptFormat _ | .rorgParseByte _ | .rorgFormat _ => true
  | .frameSerialize _ | .frameParse _ | .frameFromParts _ _ _ | .frameParseHex _ | .frameSerializeHex _ => true
  | .spRead _ _ | .spReadErr _ _ | .spStop | .spReset => true
  | .erp1Decode _ | .erp1Encode _ | .erp1Serialize _ => true
  | .spWsSync | .spWhAcc _ | .spWhcOk _ | .spWhcZeroSync | .spWhcResyncCur | .spWhcResyncBuf _ => true
  | .spWdAcc _ | .spWdcSync => true

end Sys2Proof
end

