-- ==== Sys2Proof/Decode.lean ====
section
/-! DEFINITION. Selecting an operation or a transition (30_encoding.md section 7, R98 and R99): the two selection words,
the decoder, total and rejecting by name, and after it the encoder. The bytes a frame is made of are decoded by the
meaning of FRAME.PARSE and by the stream parser, not here. -/

namespace Sys2Proof

/-- The operand ports an operation reads beside its select code (D1: one atomic call with operands; R98 gives the
code alone). One port for each type of operand; a port an operation does not read is ignored (log 2). -/
structure Operands where
  /-- `byte`, `b`, `v`, `packet_type` -/
  byte : Byte
  /-- `running_checksum` -/
  crc : Byte
  /-- `id`, `n` -/
  word : Word
  /-- `bytes`, `b`, `s`, `data`, `info` -/
  str : ByteString
  /-- `opt_data` -/
  optStr : ByteString
  /-- `f` -/
  frame : Frame
  /-- `p` -/
  packet : Erp1Packet
  /-- `t` -/
  time : Nat
  deriving DecidableEq, Repr

/-- Every operand port zero or empty. -/
def Operands.zero : Operands where
  byte := 0
  crc := 0
  word := 0
  str := []
  optStr := []
  frame := ⟨0, [], []⟩
  packet := ⟨0, 0, 0, 0, 0, 0, 0, []⟩
  time := 0

/-- The three conditions on registers that R99 adds to a key. -/
structure Conds where
  /-- `b == crc` -/
  crcMatch : Bool
  /-- `be16(hbuf[0], hbuf[1]) + hbuf[2] == 0` -/
  lenZero : Bool
  /-- `SYNC in hbuf` -/
  syncBuffered : Bool
  deriving DecidableEq, Repr

/-- What selects an instruction: an 8-bit `op` with its operand ports (R98, format OP8), or the stream parser's
selection word (R99, format SPKEY11): bits 7..0 the byte, 10..8 the code of `st`, and above the key's eleven bits
the three conditions, 11 `b == crc`, 12 lengths sum zero, 13 SYNC in `hbuf` (log 3). -/
inductive Selection where
  | op8 (op : Byte) (ports : Operands)
  | spKey (word : BitVec 14)
  deriving DecidableEq, Repr

/-- Why a selection selects nothing. -/
inductive DecodeError where
  /-- An operation-select code outside R98's list (U15). -/
  | badOp (op : Byte)
  /-- A state code 5, 6 or 7 (R27, U16). -/
  | badStateCode (code : BitVec 3)
  deriving DecidableEq, Repr

/-- The codes of R27. -/
def PState.code : PState → BitVec 3
  | .ws => 0
  | .wh => 1
  | .whc => 2
  | .wd => 3
  | .wdc => 4

/-- The state a code of R27 names; codes 5 to 7 name none. -/
def PState.ofCode (c : BitVec 3) : Option PState :=
  if c = 0 then some .ws
  else if c = 1 then some .wh
  else if c = 2 then some .whc
  else if c = 3 then some .wd
  else if c = 4 then some .wdc
  else none

/-- R99: exactly one transition for each state, byte and register conditions. In state WHC the order of the tests
is R286's: `b == crc`, then the lengths, then `b == 0x55`; on a mismatch SYNC in `hbuf` first. In state WDC
`b == 0x55` comes first (R225). -/
def selectTransition (st : PState) (b : Byte) (c : Conds) : Transition :=
  match st with
  | .ws => if b = sync then .wsSync else .wsSkip
  | .wh => .whAcc
  | .whc =>
    if c.crcMatch then
      if c.lenZero then (if b = sync then .whcZeroSync else .whcZero) else .whcOk
    else if c.syncBuffered then .whcResyncBuf
    else if b = sync then .whcResyncCur
    else .whcResyncNone
  | .wd => .wdAcc
  | .wdc =>
    if b = sync then .wdcSync
    else if c.crcMatch then .wdcOk
    else .wdcBad

/-- The instruction a transition is, processing the byte `b`. -/
def Transition.instr (tr : Transition) (b : Byte) : Instr :=
  match tr with
  | .wsSync => .spWsSync
  | .wsSkip => .spWsSkip b
  | .whAcc => .spWhAcc b
  | .whcOk => .spWhcOk b
  | .whcZeroSync => .spWhcZeroSync
  | .whcZero => .spWhcZero b
  | .whcResyncNone => .spWhcResyncNone b
  | .whcResyncCur => .spWhcResyncCur
  | .whcResyncBuf => .spWhcResyncBuf b
  | .wdAcc => .spWdAcc b
  | .wdcSync => .spWdcSync
  | .wdcOk => .spWdcOk b
  | .wdcBad => .spWdcBad b

/-- R98's table. -/
def decodeOp (op : Byte) (x : Operands) : Except DecodeError Instr :=
  if op = 0x10 then .ok (.crcStep x.byte x.crc)
  else if op = 0x11 then .ok (.crcFold x.str)
  else if op = 0x20 then .ok (.didToBytes x.word)
  else if op = 0x21 then .ok (.didToString x.word)
  else if op = 0x22 then .ok (.didFromHex x.str)
  else if op = 0x23 then .ok (.didFromBytes x.str)
  else if op = 0x24 then .ok .didBroadcast
  else if op = 0x25 then .ok (.didFromU32 x.word)
  else if op = 0x30 then .ok (.ptParseByte x.byte)
  else if op = 0x31 then .ok (.ptFormat x.byte)
  else if op = 0x32 then .ok (.rorgParseByte x.byte)
  else if op = 0x33 then .ok (.rorgFormat x.byte)
  else if op = 0x40 then .ok (.frameSerialize x.frame)
  else if op = 0x41 then .ok (.frameParse x.str)
  else if op = 0x42 then .ok (.frameFromParts x.byte x.str x.optStr)
  else if op = 0x43 then .ok (.frameParseHex x.str)
  else if op = 0x44 then .ok (.frameSerializeHex x.frame)
  else if op = 0x50 then .ok (.spRead x.time x.str)
  else if op = 0x51 then .ok (.spReadErr x.time x.str)
  else if op = 0x52 then .ok .spStop
  else if op = 0x53 then .ok .spReset
  else if op = 0x60 then .ok (.erp1Decode x.frame)
  else if op = 0x61 then .ok (.erp1Encode x.packet)
  else if op = 0x62 then .ok (.erp1Serialize x.packet)
  else .error (.badOp op)

/-- The byte of a selection word. -/
def keyByte (word : BitVec 14) : Byte := word.extractLsb' 0 8

/-- The state code of a selection word. -/
def keyStateCode (word : BitVec 14) : BitVec 3 := word.extractLsb' 8 3

/-- The conditions of a selection word (log 3). -/
def keyConds (word : BitVec 14) : Conds where
  crcMatch := word.getLsbD 11
  lenZero := word.getLsbD 12
  syncBuffered := word.getLsbD 13

/-- R99's table. -/
def decodeKey (word : BitVec 14) : Except DecodeError Instr :=
  match PState.ofCode (keyStateCode word) with
  | some st => .ok ((selectTransition st (keyByte word) (keyConds word)).instr (keyByte word))
  | none => .error (.badStateCode (keyStateCode word))

/-- The decoder, total: the instruction a selection selects, or why it selects none. -/
def decode : Selection → Except DecodeError Instr
  | .op8 op x => decodeOp op x
  | .spKey word => decodeKey word

/-- The selection word of a state, a byte and conditions: `conditions : st[2:0] : b[7:0]` (R99, log 3). -/
def keyWord (st : PState) (b : Byte) (c : Conds) : BitVec 14 :=
  BitVec.ofBool c.syncBuffered ++ BitVec.ofBool c.lenZero ++ BitVec.ofBool c.crcMatch ++ st.code ++ b

/-- The encoder: R98's code with the operand ports the operation reads (the others zero), or R99's key with the
conditions the transition needs (the others false). -/
def encode : Instr → Selection
  | .crcStep b c => .op8 0x10 { Operands.zero with byte := b, crc := c }
  | .crcFold bs => .op8 0x11 { Operands.zero with str := bs }
  | .didToBytes id => .op8 0x20 { Operands.zero with word := id }
  | .didToString id => .op8 0x21 { Operands.zero with word := id }
  | .didFromHex str => .op8 0x22 { Operands.zero with str := str }
  | .didFromBytes bs => .op8 0x23 { Operands.zero with str := bs }
  | .didBroadcast => .op8 0x24 Operands.zero
  | .didFromU32 n => .op8 0x25 { Operands.zero with word := n }
  | .ptParseByte b => .op8 0x30 { Operands.zero with byte := b }
  | .ptFormat v => .op8 0x31 { Operands.zero with byte := v }
  | .rorgParseByte b => .op8 0x32 { Operands.zero with byte := b }
  | .rorgFormat v => .op8 0x33 { Operands.zero with byte := v }
  | .frameSerialize f => .op8 0x40 { Operands.zero with frame := f }
  | .frameParse bs => .op8 0x41 { Operands.zero with str := bs }
  | .frameFromParts pt d o => .op8 0x42 { Operands.zero with byte := pt, str := d, optStr := o }
  | .frameParseHex str => .op8 0x43 { Operands.zero with str := str }
  | .frameSerializeHex f => .op8 0x44 { Operands.zero with frame := f }
  | .spRead t bs => .op8 0x50 { Operands.zero with time := t, str := bs }
  | .spReadErr t info => .op8 0x51 { Operands.zero with time := t, str := info }
  | .spStop => .op8 0x52 Operands.zero
  | .spReset => .op8 0x53 Operands.zero
  | .erp1Decode f => .op8 0x60 { Operands.zero with frame := f }
  | .erp1Encode p => .op8 0x61 { Operands.zero with packet := p }
  | .erp1Serialize p => .op8 0x62 { Operands.zero with packet := p }
  | .spWsSync => .spKey (keyWord .ws sync ⟨false, false, false⟩)
  | .spWsSkip b => .spKey (keyWord .ws b ⟨false, false, false⟩)
  | .spWhAcc b => .spKey (keyWord .wh b ⟨false, false, false⟩)
  | .spWhcOk b => .spKey (keyWord .whc b ⟨true, false, false⟩)
  | .spWhcZeroSync => .spKey (keyWord .whc sync ⟨true, true, false⟩)
  | .spWhcZero b => .spKey (keyWord .whc b ⟨true, true, false⟩)
  | .spWhcResyncNone b => .spKey (keyWord .whc b ⟨false, false, false⟩)
  | .spWhcResyncCur => .spKey (keyWord .whc sync ⟨false, false, false⟩)
  | .spWhcResyncBuf b => .spKey (keyWord .whc b ⟨false, false, true⟩)
  | .spWdAcc b => .spKey (keyWord .wd b ⟨false, false, false⟩)
  | .spWdcSync => .spKey (keyWord .wdc sync ⟨false, false, false⟩)
  | .spWdcOk b => .spKey (keyWord .wdc b ⟨true, false, false⟩)
  | .spWdcBad b => .spKey (keyWord .wdc b ⟨false, false, false⟩)

/-- The selection a table word stands for: a row of at most eight bits is an `op` with its operand ports zero, a
wider one a selection word whose conditions are the bits above the key (all false in a bare table word, log 4).
A number too large for the word is none. -/
def tableSelection (nbits w : Nat) : Option Selection :=
  if nbits ≤ 8 then
    if w < 256 then some (.op8 (BitVec.ofNat 8 w) Operands.zero) else none
  else
    if w < 16384 then some (.spKey (BitVec.ofNat 14 w)) else none

/-- The instruction the decoder reads from a word numbered as spec/opcode_table.json numbers it. -/
def decodeTableWord (nbits w : Nat) : Option Instr :=
  match tableSelection nbits w with
  | none => none
  | some sel =>
    match decode sel with
    | .ok i => some i
    | .error _ => none

end Sys2Proof
end

