-- ==== Sys2Proof/Machine/Parameters.lean ====
section
/-! DEFINITION. The default values of the parameters (00_scope.md R8, column "default"; decisions D9, D13 to D18, D22).
The rows marked gk are, in the spec's words, "from general knowledge, not in source" (log 10). -/

namespace Sys2Proof.Machine

/-- The default packet-type table (R165). -/
def defaultPtTable : List (Byte × Text) := [
  (0x01, text "RADIO_ERP1"),          -- source
  (0x02, text "RESPONSE"),            -- source
  (0x03, text "RADIO_SUB_TEL"),       -- gk
  (0x04, text "EVENT"),               -- the name is the source's, the code gk
  (0x05, text "COMMON_COMMAND"),      -- gk
  (0x06, text "SMART_ACK_COMMAND"),   -- gk
  (0x07, text "REMOTE_MAN_COMMAND"),  -- gk
  (0x09, text "RADIO_MESSAGE"),       -- gk
  (0x0A, text "RADIO_ERP2"),          -- source
  (0x0B, text "CONFIG_COMMAND"),      -- gk
  (0x0C, text "COMMAND_ACCEPTED"),    -- gk
  (0x10, text "RADIO_802_15_4"),      -- gk
  (0x11, text "COMMAND_2_4")]         -- gk

/-- The default RORG table (R166). -/
def defaultRorgTable : List (Byte × Text) := [
  (0xF6, text "RPS"),         -- source
  (0xD5, text "1BS"),         -- gk
  (0xA5, text "4BS"),         -- source
  (0xD2, text "VLD"),         -- source
  (0xD1, text "MSC"),         -- gk
  (0xA6, text "ADT"),         -- gk
  (0xC6, text "SM_LRN_REQ"),  -- gk
  (0xC7, text "SM_LRN_ANS"),  -- gk
  (0xA7, text "SM_REC"),      -- gk
  (0xC5, text "SYS_EX"),      -- gk
  (0x30, text "SEC"),         -- gk
  (0x31, text "SEC_ENCAPS"),  -- gk
  (0x34, text "SEC_MAN"),     -- gk
  (0xD0, text "SIGNAL"),      -- gk
  (0xD4, text "UTE")]         -- gk

/-- R8's defaults: `drop`, RORG not validated, one millisecond, unbounded queue, 65790 bytes, unbounded operands. -/
def defaultConfig : Config where
  ptTable := defaultPtTable
  rorgTable := defaultRorgTable
  spUnknownPt := .drop
  erp1StrictRorg := false
  timeUnitNs := 1000000
  outqDepth := none
  pbufMax := 65790
  inMax := none

end Sys2Proof.Machine
end

