-- ==== Sys2Proof/Machine/State.lean ====
section
/-! DEFINITION. The machine's state as plain data: the stream parser's registers (10_state.md R26, the only registers of
the block, R33 and R34), the parameters, and the interface the owner, the callers and the consumer see. -/

namespace Sys2Proof.Machine

/-- The ten error kinds of R280, in the source's order. -/
inductive Err where
  | invalidLength | invalidHex | tooShort | missingSync | headerChecksumMismatch | payloadChecksumMismatch
  | unknownCode | wrongPacketType | dataTooShort | optDataTooShort
  deriving DecidableEq, Repr

/-- The two faults of R282: outcomes a caller receives, not stops of the machine (log 5). -/
inductive OpFault where
  /-- `F_SLICE_RANGE` -/
  | sliceRange
  /-- `F_LEN_LIMIT` -/
  | lenLimit
  deriving DecidableEq, Repr

/-- R12: every operation returns exactly one of three outcomes. -/
inductive Reply (α : Type) where
  | ok (v : α)
  | err (e : Err)
  | fault (f : OpFault)
  deriving DecidableEq, Repr

/-- What an `ok` outcome carries. -/
inductive Value where
  /-- a checksum, or a code that parsed -/
  | byte (b : Byte)
  /-- a device identifier -/
  | ident (id : Word)
  | bytes (s : ByteString)
  | text (s : Text)
  | frame (f : Frame)
  | packet (p : Erp1Packet)
  deriving DecidableEq, Repr

/-- The stream parser's registers, R26. The fill counts `hcnt` and `pcnt` are the lengths of the buffers (log 18). -/
structure Parser where
  /-- the current state (R27) -/
  st : PState
  /-- the running checksum (R28) -/
  crc : Byte
  /-- the header buffer (R29) -/
  hbuf : ByteString
  /-- `data_len` of the accepted header -/
  dlen : Half
  /-- `opt_data_len` of the accepted header -/
  olen : Byte
  /-- packet-type code of the accepted header -/
  ptc : Byte
  /-- the payload buffer (R30) -/
  pbuf : ByteString
  /-- the time stamp of the latest non-empty read (R31) -/
  tLast : Option Nat
  /-- emitted Frames not yet taken, oldest first (R32) -/
  outq : List Frame
  deriving DecidableEq, Repr

/-- R35's table (log 20). -/
def Parser.reset : Parser where
  st := .ws
  crc := 0
  hbuf := []
  dlen := 0
  olen := 0
  ptc := 0
  pbuf := []
  tLast := none
  outq := []

/-- What an agent does next: a call with its select code and operand ports (R98, D1), which serves SP.READ whole; the
owner's SP.READ with the transitions inside it taken one a step (R232, D1; log 15); or the consumer taking the oldest
Frame (R32, R62). A byte reaches the parser inside a read only (R291). -/
inductive Input where
  | call (op : Byte) (ports : Operands)
  | bytewiseRead (t : Nat) (bytes : ByteString)
  | take
  deriving DecidableEq, Repr

/-- A read in progress (R233): between its gap test and its write of `t_last`. -/
structure Reading where
  /-- the time stamp `t` of the read -/
  time : Nat
  /-- the bytes of the read not yet processed, in string order -/
  bytes : ByteString
  deriving DecidableEq, Repr

/-- The machine's state. -/
structure State where
  /-- the parameters (R8); no step writes them (R34, log 9) -/
  cfg : Config
  /-- the stream parser's registers (R26) -/
  parser : Parser
  /-- the run has ended: SP.STOP without a later SP.RESET (R238, log 8) -/
  stopped : Bool
  /-- the SP.READ whose transitions are being taken one a step, if any (R233, D1; log 15) -/
  reading : Option Reading
  /-- the outcome of the latest one-shot operation (R12, log 5) -/
  result : Option (Reply Value)
  /-- what SP.READ_ERR reported, oldest first (R236, log 6) -/
  reports : List Text
  /-- the Frames the consumer has taken, oldest first (R62, log 7) -/
  taken : List Frame
  /-- what the agents do next, oldest first (log 1) -/
  inputs : List Input
  deriving DecidableEq, Repr

/-- The machine stops with a fault: never. The block's two faults are outcomes a caller receives (R12, R283), and no
rule stops the block, so nothing raises one (log 5). -/
inductive Fault where
  deriving DecidableEq, Repr

/-- The moves the model does not have (R292). Each is safe: the model stops where the spec makes no claim. -/
inductive Refusal where
  /-- An instruction without a meaning: raised by no arm of `exec` today. Safe. -/
  | notModelled (mnemonic : String)
  /-- An operation-select code or state code that selects nothing (R98, R292, U15, U16): raised by `step`. Safe. -/
  | unselectable (e : DecodeError)
  /-- An event or a byte after SP.STOP and before SP.RESET (R238, R292, U14): raised by the meanings of the events
  but SP.RESET and of the transitions. Safe. -/
  | afterStop
  /-- A transition that R99 does not select for the registers and the byte: raised by the meanings of the
  transitions (log 16). Safe. -/
  | notSelected
  /-- A Frame emitted when a finite `OUTQ_DEPTH` is reached (U7): raised by SP.READ, SP.WDC.OK (log 12). Safe. -/
  | outqFull
  /-- A one-shot operand longer than a finite `IN_MAX` (R8): raised by `step` (log 13). Safe. -/
  | operandTooLong
  deriving DecidableEq, Repr

/-- The machine right after reset: the parser's registers at R35's values, the parameters at R8's defaults, nothing
on the model's own interface fields (logs 1, 5 to 9). -/
def State.reset : State where
  cfg := defaultConfig
  parser := Parser.reset
  stopped := false
  reading := none
  result := none
  reports := []
  taken := []
  inputs := []

end Sys2Proof.Machine
end

