-- ==== Sys2Proof/Machine/Operands.lean ====
section
/-! DEFINITION. Operand forms: bytes and slices of byte strings (00_scope.md R11), big-endian fields (20_memory.md R53,
30_encoding.md R82, R83, R87), hexadecimal text (30_encoding.md R94, R95). -/

namespace Sys2Proof.Machine

/-- `s[i]` (R11). Every rule reads inside the string; outside it the model answers 0 (log 19). -/
def byteAt (s : ByteString) (i : Nat) : Byte := s.getD i 0

/-- `s[a:b)` (R11), for `a <= b <= len(s)`. -/
def slice (s : ByteString) (a b : Nat) : ByteString := (s.drop a).take (b - a)

/-- `be16(h, l)` (R11). -/
def be16 (h l : Byte) : Half := h ++ l

/-- `be32(b0, b1, b2, b3)` (R11). -/
def be32 (b0 b1 b2 b3 : Byte) : Word := b0 ++ b1 ++ b2 ++ b3

/-- Format DID4 (R87): the four bytes of an identifier, most significant first. -/
def wordBytes (id : Word) : ByteString :=
  [id.extractLsb' 24 8, id.extractLsb' 16 8, id.extractLsb' 8 8, id.extractLsb' 0 8]

/-- The four bytes at `i` as an identifier (R87). -/
def wordAt (s : ByteString) (i : Nat) : Word :=
  be32 (byteAt s i) (byteAt s (i + 1)) (byteAt s (i + 2)) (byteAt s (i + 3))

/-- Format HDR (R83): the four header bytes of a frame within the length limits. -/
def headerBytes (f : Frame) : ByteString :=
  [BitVec.ofNat 8 (f.data.length >>> 8), BitVec.ofNat 8 f.data.length, BitVec.ofNat 8 f.optData.length, f.packetType]

/-- `val` of R94: the value of a hexadecimal digit, both letter cases. -/
def hexVal (c : Byte) : Option (BitVec 4) :=
  let n := c.toNat
  if 48 ≤ n ∧ n ≤ 57 then some (BitVec.ofNat 4 (n - 48))
  else if 97 ≤ n ∧ n ≤ 102 then some (BitVec.ofNat 4 (n - 87))
  else if 65 ≤ n ∧ n ≤ 70 then some (BitVec.ofNat 4 (n - 55))
  else none

/-- Two digits make one byte, the high nibble first (R93, R94); `none` where a character is no digit. -/
def hexPairs : Text → Option ByteString
  | [] => some []
  | [_] => none
  | hi :: lo :: rest =>
    match hexVal hi, hexVal lo, hexPairs rest with
    | some h, some l, some bs => some ((h ++ l) :: bs)
    | _, _, _ => none

/-- An odd-length text gets one leading `"0"` (R94). -/
def hexPad (s : Text) : Text := if s.length % 2 = 1 then text "0" ++ s else s

/-- `HEXDEC(s)` (R94). -/
def hexDec (s : Text) : Reply ByteString :=
  match hexPairs (hexPad s) with
  | some bs => .ok bs
  | none => .err .invalidHex

/-- The lowercase digit of a nibble (R95). -/
def hexDigit (v : BitVec 4) : Byte :=
  if v.toNat < 10 then BitVec.ofNat 8 (48 + v.toNat) else BitVec.ofNat 8 (87 + v.toNat)

/-- `HEXENC(b)` (R95). -/
def hexEnc (bs : ByteString) : Text :=
  bs.flatMap fun b => [hexDigit (b.extractLsb' 4 4), hexDigit (b.extractLsb' 0 4)]

/-- The byte-string operands of a one-shot operation, which `IN_MAX` bounds (R8, R50); events and transitions have
none (log 13). -/
def operandStrings : Instr → List ByteString
  | .crcFold bs => [bs]
  | .didFromHex str => [str]
  | .didFromBytes bs => [bs]
  | .frameSerialize f => [f.data, f.optData]
  | .frameParse bs => [bs]
  | .frameFromParts _ d o => [d, o]
  | .frameParseHex str => [str]
  | .frameSerializeHex f => [f.data, f.optData]
  | .erp1Decode f => [f.data, f.optData]
  | .erp1Encode p => [p.userData]
  | .erp1Serialize p => [p.userData]
  | .crcStep _ _ | .didToBytes _ | .didToString _ | .didBroadcast | .didFromU32 _ => []
  | .ptParseByte _ | .ptFormat _ | .rorgParseByte _ | .rorgFormat _ => []
  | .spRead _ _ | .spReadErr _ _ | .spStop | .spReset => []
  | .spWsSync | .spWsSkip _ | .spWhAcc _ | .spWhcOk _ | .spWhcZeroSync | .spWhcZero _ | .spWhcResyncNone _ => []
  | .spWhcResyncCur | .spWhcResyncBuf _ | .spWdAcc _ | .spWdcSync | .spWdcOk _ | .spWdcBad _ => []

/-- Every byte-string operand is within `IN_MAX` (R8, log 13). -/
def withinInMax (cfg : Config) (i : Instr) : Bool :=
  match cfg.inMax with
  | none => true
  | some n => (operandStrings i).all fun bs => bs.length ≤ n

end Sys2Proof.Machine
end

