-- ==== Sys2Proof/Machine/Flags.lean ====
section
/-! DEFINITION. The block has no flags (10_state.md R34): the comparisons a transition makes are evaluated within it and
not stored. Here are those comparisons, and the header fields they read (30_encoding.md R82, 44_stream_parser.md R215). -/

namespace Sys2Proof.Machine

/-- `D = be16(hbuf[0], hbuf[1])` (R215). -/
def Parser.headerDataLen (p : Parser) : Half := be16 (byteAt p.hbuf 0) (byteAt p.hbuf 1)

/-- `O = hbuf[2]` (R215). -/
def Parser.headerOptLen (p : Parser) : Byte := byteAt p.hbuf 2

/-- `P = hbuf[3]` (R215). -/
def Parser.headerPacketType (p : Parser) : Byte := byteAt p.hbuf 3

/-- `D + O`, computed without wrapping (R66, R216). -/
def Parser.headerTotal (p : Parser) : Nat := p.headerDataLen.toNat + p.headerOptLen.toNat

/-- `dlen + olen`, computed without wrapping (R66). -/
def Parser.payloadTotal (p : Parser) : Nat := p.dlen.toNat + p.olen.toNat

/-- The three conditions of R99 on the registers. -/
def Parser.conds (p : Parser) (b : Byte) : Conds where
  crcMatch := b == p.crc
  lenZero := p.headerTotal == 0
  syncBuffered := p.hbuf.contains sync

/-- The transition R99 selects for the registers and the byte. -/
def Parser.selected (p : Parser) (b : Byte) : Transition := selectTransition p.st b (p.conds b)

/-- The gap test of R233 and R235: true when `t_last` is not `none` and `t - t_last`, which is 0 when
`t < t_last`, is at least 100 ms. -/
def gapElapsed (cfg : Config) (tLast : Option Nat) (t : Nat) : Bool :=
  match tLast with
  | none => false
  | some t0 => gapNs ≤ (t - t0) * cfg.timeUnitNs

end Sys2Proof.Machine
end

