-- ==== Sys2Proof/Machine/Ops.lean ====
section
/-! DEFINITION. The named operations the meanings share: reading TABLE and folding (40_checksum.md), the code sets
(42_code_enumerations.md), emitting and taking a Frame (10_state.md R32), returning an outcome (00_scope.md R12), which is
also how an error or a fault is raised (60_exceptions.md R283), and ending an event. -/

namespace Sys2Proof.Machine

/-- The checksum table, R121, one row for each high nibble of the index. -/
def crcTable : List ByteString := [
  [0x00, 0x07, 0x0e, 0x09, 0x1c, 0x1b, 0x12, 0x15, 0x38, 0x3f, 0x36, 0x31, 0x24, 0x23, 0x2a, 0x2d],
  [0x70, 0x77, 0x7e, 0x79, 0x6c, 0x6b, 0x62, 0x65, 0x48, 0x4f, 0x46, 0x41, 0x54, 0x53, 0x5a, 0x5d],
  [0xe0, 0xe7, 0xee, 0xe9, 0xfc, 0xfb, 0xf2, 0xf5, 0xd8, 0xdf, 0xd6, 0xd1, 0xc4, 0xc3, 0xca, 0xcd],
  [0x90, 0x97, 0x9e, 0x99, 0x8c, 0x8b, 0x82, 0x85, 0xa8, 0xaf, 0xa6, 0xa1, 0xb4, 0xb3, 0xba, 0xbd],
  [0xc7, 0xc0, 0xc9, 0xce, 0xdb, 0xdc, 0xd5, 0xd2, 0xff, 0xf8, 0xf1, 0xf6, 0xe3, 0xe4, 0xed, 0xea],
  [0xb7, 0xb0, 0xb9, 0xbe, 0xab, 0xac, 0xa5, 0xa2, 0x8f, 0x88, 0x81, 0x86, 0x93, 0x94, 0x9d, 0x9a],
  [0x27, 0x20, 0x29, 0x2e, 0x3b, 0x3c, 0x35, 0x32, 0x1f, 0x18, 0x11, 0x16, 0x03, 0x04, 0x0d, 0x0a],
  [0x57, 0x50, 0x59, 0x5e, 0x4b, 0x4c, 0x45, 0x42, 0x6f, 0x68, 0x61, 0x66, 0x73, 0x74, 0x7d, 0x7a],
  [0x89, 0x8e, 0x87, 0x80, 0x95, 0x92, 0x9b, 0x9c, 0xb1, 0xb6, 0xbf, 0xb8, 0xad, 0xaa, 0xa3, 0xa4],
  [0xf9, 0xfe, 0xf7, 0xf0, 0xe5, 0xe2, 0xeb, 0xec, 0xc1, 0xc6, 0xcf, 0xc8, 0xdd, 0xda, 0xd3, 0xd4],
  [0x69, 0x6e, 0x67, 0x60, 0x75, 0x72, 0x7b, 0x7c, 0x51, 0x56, 0x5f, 0x58, 0x4d, 0x4a, 0x43, 0x44],
  [0x19, 0x1e, 0x17, 0x10, 0x05, 0x02, 0x0b, 0x0c, 0x21, 0x26, 0x2f, 0x28, 0x3d, 0x3a, 0x33, 0x34],
  [0x4e, 0x49, 0x40, 0x47, 0x52, 0x55, 0x5c, 0x5b, 0x76, 0x71, 0x78, 0x7f, 0x6a, 0x6d, 0x64, 0x63],
  [0x3e, 0x39, 0x30, 0x37, 0x22, 0x25, 0x2c, 0x2b, 0x06, 0x01, 0x08, 0x0f, 0x1a, 0x1d, 0x14, 0x13],
  [0xae, 0xa9, 0xa0, 0xa7, 0xb2, 0xb5, 0xbc, 0xbb, 0x96, 0x91, 0x98, 0x9f, 0x8a, 0x8d, 0x84, 0x83],
  [0xde, 0xd9, 0xd0, 0xd7, 0xc2, 0xc5, 0xcc, 0xcb, 0xe6, 0xe1, 0xe8, 0xef, 0xfa, 0xfd, 0xf4, 0xf3]]

/-- `T[i]`, which is `MemRead(TABLE, i, 1)` (R13, R20, R121): entry `16 * r + c` is row `r`, column `c`. -/
def tableRead (i : Byte) : Byte := byteAt (crcTable.getD (i.toNat / 16) []) (i.toNat % 16)

/-- `T[byte ^ crc]`, the one use of the table (R51, R124). -/
def crcStep (byte crc : Byte) : Byte := tableRead (byte ^^^ crc)

/-- `CRC.FOLDFROM(c0, bytes)` (R126). -/
def crcFoldFrom (c0 : Byte) (bytes : ByteString) : Byte := bytes.foldl (fun c b => crcStep b c) c0

/-- `CRC.FOLD(bytes)` (R125). -/
def crcFold (bytes : ByteString) : Byte := crcFoldFrom 0 bytes

/-- The mnemonic a code table gives a code, `none` for a code outside it (R165, R166). -/
def codeName (table : List (Byte × Text)) (c : Byte) : Option Text :=
  match table.find? fun e => e.1 == c with
  | some e => some e.2
  | none => none

/-- `pt_known(c)` (R24): `c` is in `PT_CODES`. -/
def ptKnown (cfg : Config) (c : Byte) : Bool := (codeName cfg.ptTable c).isSome

/-- `rorg_known(c)` (R24): `c` is in `RORG_CODES`. -/
def rorgKnown (cfg : Config) (c : Byte) : Bool := (codeName cfg.rorgTable c).isSome

/-- The text a code formats as: its mnemonic, or `"UNKNOWN"` (R162, R164). -/
def formatCode (table : List (Byte × Text)) (c : Byte) : Text :=
  match codeName table c with
  | some name => name
  | none => text "UNKNOWN"

/-- An inner outcome passed on, its value changed (R290). -/
def Reply.map {α β : Type} (g : α → β) (r : Reply α) : Reply β :=
  match r with
  | .ok v => .ok (g v)
  | .err e => .err e
  | .fault f => .fault f

/-- An inner outcome continued: an error or a fault of the inner operation reaches the caller unchanged (R290). -/
def Reply.bind {α β : Type} (r : Reply α) (g : α → Reply β) : Reply β :=
  match r with
  | .ok v => g v
  | .err e => .err e
  | .fault f => .fault f

/-- The codes E1 to E10 of the error kinds (R280). -/
def Err.code : Err → Nat
  | .invalidLength => 1
  | .invalidHex => 2
  | .tooShort => 3
  | .missingSync => 4
  | .headerChecksumMismatch => 5
  | .payloadChecksumMismatch => 6
  | .unknownCode => 7
  | .wrongPacketType => 8
  | .dataTooShort => 9
  | .optDataTooShort => 10

/-- The codes F1 and F2 of the faults (R282). -/
def OpFault.code : OpFault → Nat
  | .sliceRange => 1
  | .lenLimit => 2

/-- The outcome port written (R12). -/
def State.putResult (s : State) (r : Reply Value) : State := { s with result := some r }

/-- The stream parser's registers written together (R13, R58). -/
def State.putParser (s : State) (p : Parser) : State := { s with parser := p }

/-- A report to the embedding context (R236). -/
def State.addReport (s : State) (info : Text) : State := { s with reports := s.reports ++ [info] }

/-- The run ended or begun anew (R238, R239). -/
def State.putStopped (s : State) (b : Bool) : State := { s with stopped := b }

/-- A read begun, advanced or ended (R233). -/
def State.putReading (s : State) (r : Option Reading) : State := { s with reading := r }

/-- What a one-shot operation does to the machine: its outcome goes to the caller and nothing else is written (R12,
R14). Raising an error or a fault is the same act with that outcome (R283), and there is no return from it (R284). -/
def answer (s : State) (r : Reply Value) : Host.Outcome State Fault Refusal := .next (s.putResult r)

/-- `emit(f)` (R13, R32): the Frame goes behind every Frame emitted earlier. -/
def Parser.emit (p : Parser) (f : Frame) : Parser := { p with outq := p.outq ++ [f] }

/-- `st <- WS`, the effect of the gap rule (R235). -/
def Parser.toWaitSync (p : Parser) : Parser := { p with st := .ws }

/-- A Frame was emitted although a finite `OUTQ_DEPTH` leaves no room for it (U7, log 12). -/
def overfull (cfg : Config) (before after : Parser) : Bool :=
  match cfg.outqDepth with
  | none => false
  | some depth => before.outq.length < after.outq.length && depth < after.outq.length

/-- The end of an event or transition of the stream parser: after SP.STOP it is refused (R238), a full finite queue is
refused (U7), otherwise the registers are written (R58). -/
def commit (s : State) (p : Parser) : Host.Outcome State Fault Refusal :=
  if s.stopped then .refused .afterStop
  else if overfull s.cfg s.parser p then .refused .outqFull
  else .next (s.putParser p)

/-- The consumer takes the Frame at the head of `outq` (R32, R62); on an empty queue it takes nothing (log 7). -/
def consumerTake (s : State) : State :=
  match s.parser.outq with
  | [] => s
  | f :: rest => { s with parser := { s.parser with outq := rest }, taken := s.taken ++ [f] }

end Sys2Proof.Machine
end

