-- ==== Sys2Proof/Machine/Checksum.lean ====
section
/-! DEFINITION. Unit U1, the checksum engine (40_checksum.md). -/

namespace Sys2Proof.Machine

/-- `CRC.STEP(byte, running_checksum)`, R124. -/
def execCrcStep (byte crc : Byte) (s : State) : Host.Outcome State Fault Refusal :=
  answer s (.ok (.byte (crcStep byte crc)))

/-- `CRC.FOLD(bytes)`, R125. -/
def execCrcFold (bytes : ByteString) (s : State) : Host.Outcome State Fault Refusal :=
  answer s (.ok (.byte (crcFold bytes)))

end Sys2Proof.Machine
end

