-- ==== Sys2Proof/Machine/DeviceId.lean ====
section
/-! DEFINITION. Unit U2, the device-identifier codec (41_device_identifier.md). -/

namespace Sys2Proof.Machine

/-- `DID.TO_STRING(id)` as a function (R142). -/
def didToString (id : Word) : Text := hexEnc (wordBytes id)

/-- `DID.FROM_BYTES(b)` as a function (R143): at most four bytes, left-padded with zeros. -/
def didFromBytes (b : ByteString) : Reply Word :=
  if b.length > 4 then .err .invalidLength
  else .ok (wordAt (List.replicate (4 - b.length) 0 ++ b) 0)

/-- One optional leading `"0x"` removed (R144). -/
def stripHexMark (str : Text) : Text := if str.take 2 = text "0x" then str.drop 2 else str

/-- `DID.FROM_HEX(s)` as a function (R144): the length test precedes the digits. -/
def didFromHex (str : Text) : Reply Word :=
  if (stripHexMark str).length > 8 then .err .invalidLength
  else (hexDec (stripHexMark str)).bind didFromBytes

/-- `DID.TO_BYTES(id)`, R141. -/
def execDidToBytes (id : Word) (s : State) : Host.Outcome State Fault Refusal :=
  answer s (.ok (.bytes (wordBytes id)))

/-- `DID.TO_STRING(id)`, R142. -/
def execDidToString (id : Word) (s : State) : Host.Outcome State Fault Refusal :=
  answer s (.ok (.text (didToString id)))

/-- `DID.FROM_HEX(s)`, R144. -/
def execDidFromHex (str : Text) (s : State) : Host.Outcome State Fault Refusal :=
  answer s ((didFromHex str).map .ident)

/-- `DID.FROM_BYTES(b)`, R143. -/
def execDidFromBytes (bytes : ByteString) (s : State) : Host.Outcome State Fault Refusal :=
  answer s ((didFromBytes bytes).map .ident)

/-- `DID.BROADCAST()`, R145. -/
def execDidBroadcast (s : State) : Host.Outcome State Fault Refusal :=
  answer s (.ok (.ident didBroadcastId))

/-- `DID.FROM_U32(n)`, R140. -/
def execDidFromU32 (n : Word) (s : State) : Host.Outcome State Fault Refusal :=
  answer s (.ok (.ident n))

end Sys2Proof.Machine
end

