-- ==== Sys2Proof/Machine/Enums.lean ====
section
/-! DEFINITION. Unit U3, the code enumerations (42_code_enumerations.md): strict parsing, permissive formatting. -/

namespace Sys2Proof.Machine

/-- `PT.PARSE_BYTE(b)`, R161. -/
def execPtParseByte (b : Byte) (s : State) : Host.Outcome State Fault Refusal :=
  answer s (if ptKnown s.cfg b then .ok (.byte b) else .err .unknownCode)

/-- `PT.FORMAT(v)`, R162. -/
def execPtFormat (v : Byte) (s : State) : Host.Outcome State Fault Refusal :=
  answer s (.ok (.text (formatCode s.cfg.ptTable v)))

/-- `RORG.PARSE_BYTE(b)`, R163. -/
def execRorgParseByte (b : Byte) (s : State) : Host.Outcome State Fault Refusal :=
  answer s (if rorgKnown s.cfg b then .ok (.byte b) else .err .unknownCode)

/-- `RORG.FORMAT(v)`, R164. -/
def execRorgFormat (v : Byte) (s : State) : Host.Outcome State Fault Refusal :=
  answer s (.ok (.text (formatCode s.cfg.rorgTable v)))

end Sys2Proof.Machine
end

