-- ==== Sys2Proof/Machine/FrameModel.lean ====
section
/-! DEFINITION. Unit U4, the frame serializer and the one-shot frame parser (43_frame.md). -/

namespace Sys2Proof.Machine

/-- The header fields can hold the two lengths (R181, R182). -/
def fitsLimits (data optData : ByteString) : Bool := data.length ≤ dataLenMax && optData.length ≤ optLenMax

/-- `FRAME.FROM_PARTS` as a function (R180): only the length limits are checked. -/
def frameFromParts (pt : Byte) (data optData : ByteString) : Reply Frame :=
  if fitsLimits data optData then .ok ⟨pt, data, optData⟩ else .fault .lenLimit

/-- The bytes of a frame within the limits (R80, R182). -/
def frameBytes (f : Frame) : ByteString :=
  [sync] ++ headerBytes f ++ [crcFold (headerBytes f)] ++ f.data ++ f.optData ++ [crcFold (f.data ++ f.optData)]

/-- `FRAME.SERIALIZE` as a function (R182). -/
def frameSerialize (f : Frame) : Reply ByteString :=
  if fitsLimits f.data f.optData then .ok (frameBytes f) else .fault .lenLimit

/-- `FRAME.PARSE` as a function (R185): the checks in the order of R184; `opt_data_len`, byte 3, is not used (R186);
the slice that does not exist is the last check (R187). -/
def frameParse (cfg : Config) (w : ByteString) : Reply Frame :=
  let p := w.length - 1
  let dataEnd := 6 + (be16 (byteAt w 1) (byteAt w 2)).toNat
  if w.length < frameMin then .err .tooShort
  else if byteAt w 0 ≠ sync then .err .missingSync
  else if crcFold (slice w 1 5) ≠ byteAt w 5 then .err .headerChecksumMismatch
  else if ptKnown cfg (byteAt w 4) = false then .err .unknownCode
  else if crcFold (slice w 6 p) ≠ byteAt w p then .err .payloadChecksumMismatch
  else if dataEnd > p then .fault .sliceRange
  else .ok ⟨byteAt w 4, slice w 6 dataEnd, slice w dataEnd p⟩

/-- `FRAME.PARSE_HEX` as a function (R190). -/
def frameParseHex (cfg : Config) (str : Text) : Reply Frame := (hexDec str).bind (frameParse cfg)

/-- `FRAME.SERIALIZE_HEX` as a function (R191). -/
def frameSerializeHex (f : Frame) : Reply Text := (frameSerialize f).map hexEnc

/-- `FRAME.SERIALIZE(f)`, R182. -/
def execFrameSerialize (f : Frame) (s : State) : Host.Outcome State Fault Refusal :=
  answer s ((frameSerialize f).map .bytes)

/-- `FRAME.PARSE(bytes)`, R185. -/
def execFrameParse (bytes : ByteString) (s : State) : Host.Outcome State Fault Refusal :=
  answer s ((frameParse s.cfg bytes).map .frame)

/-- `FRAME.FROM_PARTS(packet_type, data, opt_data)`, R180. -/
def execFrameFromParts (pt : Byte) (data optData : ByteString) (s : State) : Host.Outcome State Fault Refusal :=
  answer s ((frameFromParts pt data optData).map .frame)

/-- `FRAME.PARSE_HEX(s)`, R190. -/
def execFrameParseHex (str : Text) (s : State) : Host.Outcome State Fault Refusal :=
  answer s ((frameParseHex s.cfg str).map .frame)

/-- `FRAME.SERIALIZE_HEX(f)`, R191. -/
def execFrameSerializeHex (f : Frame) (s : State) : Host.Outcome State Fault Refusal :=
  answer s ((frameSerializeHex f).map .text)

end Sys2Proof.Machine
end

