-- ==== Sys2Proof/Machine/Erp1.lean ====
section
/-! DEFINITION. Unit U6, the ERP1 packet codec (45_erp1_codec.md); layouts ERP1D and ERP1O of 30_encoding.md R89, R90. -/

namespace Sys2Proof.Machine

/-- The record of a frame long enough to hold the two layouts (R89, R90, R261). -/
def erp1Fields (f : Frame) : Erp1Packet where
  destinationId := wordAt f.optData 1
  senderId := wordAt f.data (f.data.length - 5)
  rorg := byteAt f.data 0
  rssi := byteAt f.optData 5
  securityLevel := byteAt f.optData 6
  status := byteAt f.data (f.data.length - 1)
  subTelNum := byteAt f.optData 0
  userData := slice f.data 1 (f.data.length - 5)

/-- `ERP1.DECODE` as a function (R261): the checks in the source's order, the RORG code last and only with
`ERP1_STRICT_RORG` (R262). -/
def erp1Decode (cfg : Config) (f : Frame) : Reply Erp1Packet :=
  if f.packetType ≠ ptRadioErp1 then .err .wrongPacketType
  else if f.data.length < 6 then .err .dataTooShort
  else if f.optData.length < 7 then .err .optDataTooShort
  else if cfg.erp1StrictRorg && !rorgKnown cfg (byteAt f.data 0) then .err .unknownCode
  else .ok (erp1Fields f)

/-- The frame of a packet (R263); `rssi` and `security_level` are not read (R267). -/
def erp1Frame (p : Erp1Packet) : Frame where
  packetType := ptRadioErp1
  data := [p.rorg] ++ p.userData ++ wordBytes p.senderId ++ [p.status]
  optData := [p.subTelNum] ++ wordBytes p.destinationId ++ [erp1TxRssi, erp1TxSecLvl]

/-- `ERP1.ENCODE` as a function (R263, R264). -/
def erp1Encode (p : Erp1Packet) : Reply Frame :=
  if p.userData.length > userDataMax then .fault .lenLimit else .ok (erp1Frame p)

/-- `ERP1.SERIALIZE` as a function (R265). -/
def erp1Serialize (p : Erp1Packet) : Reply ByteString := (erp1Encode p).bind frameSerialize

/-- `ERP1.DECODE(f)`, R261. -/
def execErp1Decode (f : Frame) (s : State) : Host.Outcome State Fault Refusal :=
  answer s ((erp1Decode s.cfg f).map .packet)

/-- `ERP1.ENCODE(p)`, R263. -/
def execErp1Encode (p : Erp1Packet) (s : State) : Host.Outcome State Fault Refusal :=
  answer s ((erp1Encode p).map .frame)

/-- `ERP1.SERIALIZE(p)`, R265. -/
def execErp1Serialize (p : Erp1Packet) (s : State) : Host.Outcome State Fault Refusal :=
  answer s ((erp1Serialize p).map .bytes)

end Sys2Proof.Machine
end

