-- ==== Sys2Proof/Machine/StreamParser.lean ====
section
/-! DEFINITION. Unit U5, the stream parser (44_stream_parser.md): the thirteen transitions as effects on the registers, a
read as the gap rule and a fold of transitions, and the meanings of the four events and the thirteen transitions. -/

namespace Sys2Proof.Machine

/-- The entry to WH with an empty buffer and a cleared accumulator (R212, and R217, R221, R226 by decision D6). -/
def Parser.restart (p : Parser) : Parser := { p with hbuf := [], crc := 0, st := .wh }

/-- `SP.WS.SYNC`, R212. -/
def wsSync (p : Parser) : Parser := p.restart

/-- `SP.WS.SKIP`, R213: nothing is written. -/
def wsSkip (p : Parser) : Parser := p

/-- `SP.WH.ACC`, R214. -/
def whAcc (b : Byte) (p : Parser) : Parser :=
  { p with
    hbuf := p.hbuf ++ [b]
    crc := crcStep b p.crc
    st := if (p.hbuf ++ [b]).length = 4 then .whc else p.st }

/-- `SP.WHC.OK`, R216. -/
def whcOk (p : Parser) : Parser :=
  { p with
    dlen := p.headerDataLen
    olen := p.headerOptLen
    ptc := p.headerPacketType
    pbuf := []
    crc := 0
    st := .wd }

/-- `SP.WHC.ZERO_SYNC`, R217. -/
def whcZeroSync (p : Parser) : Parser :=
  { p.restart with dlen := 0, olen := 0, ptc := p.headerPacketType }

/-- `SP.WHC.ZERO`, R218. -/
def whcZero (p : Parser) : Parser :=
  { p with dlen := 0, olen := 0, ptc := p.headerPacketType, st := .ws }

/-- `SP.WHC.RESYNC_NONE`, R220. -/
def whcResyncNone (p : Parser) : Parser := { p with st := .ws }

/-- `SP.WHC.RESYNC_CUR`, R221. -/
def whcResyncCur (p : Parser) : Parser := p.restart

/-- The bytes kept by a resynchronization (R222): those after the least index that holds 0x55 (R219), and `b`. -/
def keptHeader (hbuf : ByteString) (b : Byte) : ByteString := slice hbuf (hbuf.idxOf sync + 1) 4 ++ [b]

/-- `SP.WHC.RESYNC_BUF`, R222: the checksum is folded anew over all kept bytes, `b` included (D8). -/
def whcResyncBuf (b : Byte) (p : Parser) : Parser :=
  { p with
    hbuf := keptHeader p.hbuf b
    crc := crcFold (keptHeader p.hbuf b)
    st := if (keptHeader p.hbuf b).length = 4 then .whc else .wh }

/-- `SP.WD.ACC`, R224. -/
def wdAcc (b : Byte) (p : Parser) : Parser :=
  { p with
    pbuf := p.pbuf ++ [b]
    crc := crcStep b p.crc
    st := if (p.pbuf ++ [b]).length = p.payloadTotal then .wdc else p.st }

/-- `SP.WDC.SYNC`, R226. -/
def wdcSync (p : Parser) : Parser := p.restart

/-- The Frame the payload buffer holds (R229). -/
def Parser.payloadFrame (p : Parser) : Frame where
  packetType := p.ptc
  data := slice p.pbuf 0 p.dlen.toNat
  optData := slice p.pbuf p.dlen.toNat p.payloadTotal

/-- Whether `SP.WDC.OK` emits: the code is known, or `SP_UNKNOWN_PT = emit_raw` (R227, R231). -/
def emits (cfg : Config) (ptc : Byte) : Bool := ptKnown cfg ptc || cfg.spUnknownPt == .emitRaw

/-- `SP.WDC.OK`, R227. -/
def wdcOk (cfg : Config) (p : Parser) : Parser :=
  { (if emits cfg p.ptc then p.emit p.payloadFrame else p) with st := .ws }

/-- `SP.WDC.BAD`, R228. -/
def wdcBad (p : Parser) : Parser := { p with st := .ws }

/-- The effect of a transition on the registers (R212 to R228). -/
def transitionEffect (cfg : Config) (tr : Transition) (b : Byte) (p : Parser) : Parser :=
  match tr with
  | .wsSync => wsSync p
  | .wsSkip => wsSkip p
  | .whAcc => whAcc b p
  | .whcOk => whcOk p
  | .whcZeroSync => whcZeroSync p
  | .whcZero => whcZero p
  | .whcResyncNone => whcResyncNone p
  | .whcResyncCur => whcResyncCur p
  | .whcResyncBuf => whcResyncBuf b p
  | .wdAcc => wdAcc b p
  | .wdcSync => wdcSync p
  | .wdcOk => wdcOk cfg p
  | .wdcBad => wdcBad p

/-- One byte: the one transition R99 selects (R211). -/
def processByte (cfg : Config) (p : Parser) (b : Byte) : Parser := transitionEffect cfg (p.selected b) b p

/-- The bytes of a read in string order (R233, R61). -/
def processBytes (cfg : Config) (p : Parser) (bytes : ByteString) : Parser := bytes.foldl (processByte cfg) p

/-- The gap rule (R235): made once at the start of a non-empty read. -/
def gapForce (cfg : Config) (t : Nat) (p : Parser) : Parser :=
  if gapElapsed cfg p.tLast t then p.toWaitSync else p

/-- `t_last <- t` (R31, R233). -/
def Parser.stamp (p : Parser) (t : Nat) : Parser := { p with tLast := some t }

/-- `SP.READ(t, bytes)` on the registers (R233); an empty read changes nothing (R234). -/
def readBytes (cfg : Config) (t : Nat) (bytes : ByteString) (p : Parser) : Parser :=
  if bytes = [] then p
  else (processBytes cfg (gapForce cfg t p) bytes).stamp t

/-- `SP.READ(t, bytes)` up to its first byte (R233): the gap rule, and nothing on an empty read (R234). -/
def openRead (t : Nat) (bytes : ByteString) (s : State) : State :=
  if bytes = [] then s
  else (s.putParser (gapForce s.cfg t s.parser)).putReading (some ⟨t, bytes⟩)

/-- The last line of `SP.READ(t, bytes)` (R233): `t_last <- t`, and the read is over. -/
def closeRead (t : Nat) (s : State) : State := (s.putParser (s.parser.stamp t)).putReading none

/-- A transition as an instruction: its effect where R99 selects it, a refusal elsewhere (log 16). -/
def runTransition (tr : Transition) (b : Byte) (s : State) : Host.Outcome State Fault Refusal :=
  if s.stopped then .refused .afterStop
  else if s.parser.selected b = tr then commit s (transitionEffect s.cfg tr b s.parser)
  else .refused .notSelected

/-- `SP.READ(t, bytes)`, R233 to R235. -/
def execSpRead (t : Nat) (bytes : ByteString) (s : State) : Host.Outcome State Fault Refusal :=
  commit s (readBytes s.cfg t bytes s.parser)

/-- `SP.READ_ERR(t, info)`, R236: the report goes to the embedding context and no register is written. -/
def execSpReadErr (_t : Nat) (info : Text) (s : State) : Host.Outcome State Fault Refusal :=
  if s.stopped then .refused .afterStop else .next (s.addReport info)

/-- `SP.STOP`, R238: no register is written, nothing is flushed, the run is over. -/
def execSpStop (s : State) : Host.Outcome State Fault Refusal :=
  if s.stopped then .refused .afterStop else .next (s.putStopped true)

/-- `SP.RESET`, R239: every register at R35's value; accepted at any time (R320). -/
def execSpReset (s : State) : Host.Outcome State Fault Refusal :=
  .next ((s.putParser Parser.reset).putStopped false)

/-- `SP.WS.SYNC`, R212. -/
def execSpWsSync (s : State) : Host.Outcome State Fault Refusal := runTransition .wsSync sync s

/-- `SP.WS.SKIP`, R213. -/
def execSpWsSkip (b : Byte) (s : State) : Host.Outcome State Fault Refusal := runTransition .wsSkip b s

/-- `SP.WH.ACC`, R214. -/
def execSpWhAcc (b : Byte) (s : State) : Host.Outcome State Fault Refusal := runTransition .whAcc b s

/-- `SP.WHC.OK`, R216. -/
def execSpWhcOk (b : Byte) (s : State) : Host.Outcome State Fault Refusal := runTransition .whcOk b s

/-- `SP.WHC.ZERO_SYNC`, R217. -/
def execSpWhcZeroSync (s : State) : Host.Outcome State Fault Refusal := runTransition .whcZeroSync sync s

/-- `SP.WHC.ZERO`, R218. -/
def execSpWhcZero (b : Byte) (s : State) : Host.Outcome State Fault Refusal := runTransition .whcZero b s

/-- `SP.WHC.RESYNC_NONE`, R220. -/
def execSpWhcResyncNone (b : Byte) (s : State) : Host.Outcome State Fault Refusal := runTransition .whcResyncNone b s

/-- `SP.WHC.RESYNC_CUR`, R221. -/
def execSpWhcResyncCur (s : State) : Host.Outcome State Fault Refusal := runTransition .whcResyncCur sync s

/-- `SP.WHC.RESYNC_BUF`, R222. -/
def execSpWhcResyncBuf (b : Byte) (s : State) : Host.Outcome State Fault Refusal := runTransition .whcResyncBuf b s

/-- `SP.WD.ACC`, R224. -/
def execSpWdAcc (b : Byte) (s : State) : Host.Outcome State Fault Refusal := runTransition .wdAcc b s

/-- `SP.WDC.SYNC`, R226. -/
def execSpWdcSync (s : State) : Host.Outcome State Fault Refusal := runTransition .wdcSync sync s

/-- `SP.WDC.OK`, R227. -/
def execSpWdcOk (b : Byte) (s : State) : Host.Outcome State Fault Refusal := runTransition .wdcOk b s

/-- `SP.WDC.BAD`, R228. -/
def execSpWdcBad (b : Byte) (s : State) : Host.Outcome State Fault Refusal := runTransition .wdcBad b s

end Sys2Proof.Machine
end

