-- ==== Sys2Proof/Machine/Dispatch.lean ====
section
/-! DEFINITION. One arm for each instruction, each a call of its meaning. -/

namespace Sys2Proof.Machine

def exec (i : Instr) (s : State) : Host.Outcome State Fault Refusal :=
  match i with
  -- U1, 40_checksum.md
  | .crcStep byte crc => Sys2Proof.Machine.execCrcStep byte crc s
  | .crcFold bytes => Sys2Proof.Machine.execCrcFold bytes s
  -- U2, 41_device_identifier.md
  | .didToBytes id => Sys2Proof.Machine.execDidToBytes id s
  | .didToString id => Sys2Proof.Machine.execDidToString id s
  | .didFromHex str => Sys2Proof.Machine.execDidFromHex str s
  | .didFromBytes bytes => Sys2Proof.Machine.execDidFromBytes bytes s
  | .didBroadcast => Sys2Proof.Machine.execDidBroadcast s
  | .didFromU32 n => Sys2Proof.Machine.execDidFromU32 n s
  -- U3, 42_code_enumerations.md
  | .ptParseByte b => Sys2Proof.Machine.execPtParseByte b s
  | .ptFormat v => Sys2Proof.Machine.execPtFormat v s
  | .rorgParseByte b => Sys2Proof.Machine.execRorgParseByte b s
  | .rorgFormat v => Sys2Proof.Machine.execRorgFormat v s
  -- U4, 43_frame.md
  | .frameSerialize f => Sys2Proof.Machine.execFrameSerialize f s
  | .frameParse bytes => Sys2Proof.Machine.execFrameParse bytes s
  | .frameFromParts pt data optData => Sys2Proof.Machine.execFrameFromParts pt data optData s
  | .frameParseHex str => Sys2Proof.Machine.execFrameParseHex str s
  | .frameSerializeHex f => Sys2Proof.Machine.execFrameSerializeHex f s
  -- U5, 44_stream_parser.md, the events
  | .spRead t bytes => Sys2Proof.Machine.execSpRead t bytes s
  | .spReadErr t info => Sys2Proof.Machine.execSpReadErr t info s
  | .spStop => Sys2Proof.Machine.execSpStop s
  | .spReset => Sys2Proof.Machine.execSpReset s
  -- U6, 45_erp1_codec.md
  | .erp1Decode f => Sys2Proof.Machine.execErp1Decode f s
  | .erp1Encode p => Sys2Proof.Machine.execErp1Encode p s
  | .erp1Serialize p => Sys2Proof.Machine.execErp1Serialize p s
  -- U5, 44_stream_parser.md, the transitions
  | .spWsSync => Sys2Proof.Machine.execSpWsSync s
  | .spWsSkip b => Sys2Proof.Machine.execSpWsSkip b s
  | .spWhAcc b => Sys2Proof.Machine.execSpWhAcc b s
  | .spWhcOk b => Sys2Proof.Machine.execSpWhcOk b s
  | .spWhcZeroSync => Sys2Proof.Machine.execSpWhcZeroSync s
  | .spWhcZero b => Sys2Proof.Machine.execSpWhcZero b s
  | .spWhcResyncNone b => Sys2Proof.Machine.execSpWhcResyncNone b s
  | .spWhcResyncCur => Sys2Proof.Machine.execSpWhcResyncCur s
  | .spWhcResyncBuf b => Sys2Proof.Machine.execSpWhcResyncBuf b s
  | .spWdAcc b => Sys2Proof.Machine.execSpWdAcc b s
  | .spWdcSync => Sys2Proof.Machine.execSpWdcSync s
  | .spWdcOk b => Sys2Proof.Machine.execSpWdcOk b s
  | .spWdcBad b => Sys2Proof.Machine.execSpWdcBad b s

end Sys2Proof.Machine
end

