-- ==== Sys2Proof/Machine/Fetch.lean ====
section
/-! DEFINITION. What the machine does next: inside a read the next byte, whose transition the key and the register
conditions give (R99), or the end of the read (R233; log 15); otherwise the oldest input (log 1), a call, whose operation
the select code and the operand ports give, a read to be taken byte by byte, or the consumer's take. -/

namespace Sys2Proof.Machine

/-- The next thing to do. -/
inductive Fetched where
  /-- nothing is presented: the block does nothing on its own (R288) -/
  | idle
  /-- run an instruction, in the state whose oldest input is consumed -/
  | run (i : Instr) (s : State)
  /-- the consumer's take, or the begin or the end of a read, is done -/
  | did (s : State)
  /-- the input is no move of the block (R292) -/
  | refuse (r : Refusal)
  deriving DecidableEq, Repr

/-- The selection word of the parser's registers and the byte presented (R99). -/
def parserSelection (p : Parser) (b : Byte) : Selection := .spKey (keyWord p.st b (p.conds b))

/-- The instruction a selection gives, in the state `s` in which it is to run, or the refusal (R292). -/
def fetchSelection (sel : Selection) (s : State) : Fetched :=
  match decode sel with
  | .ok i => if withinInMax s.cfg i then .run i s else .refuse .operandTooLong
  | .error e => .refuse (.unselectable e)

/-- Inside a read: the next byte (R61, R233), and after the last one the end of the read. -/
def fetchReading (r : Reading) (s : State) : Fetched :=
  match r.bytes with
  | [] => .did (closeRead r.time s)
  | b :: rest => fetchSelection (parserSelection s.parser b) (s.putReading (some ⟨r.time, rest⟩))

/-- Outside a read: the oldest input, consumed. No read begins after SP.STOP (R238). -/
def fetchInput (s : State) : Fetched :=
  match s.inputs with
  | [] => .idle
  | .call op ports :: rest => fetchSelection (.op8 op ports) { s with inputs := rest }
  | .bytewiseRead t bytes :: rest =>
    if s.stopped then .refuse .afterStop else .did (openRead t bytes { s with inputs := rest })
  | .take :: rest => .did (consumerTake { s with inputs := rest })

/-- What the machine does next: a read that has begun is finished before any input is served (R61; log 15). -/
def fetch (s : State) : Fetched :=
  match s.reading with
  | some r => fetchReading r s
  | none => fetchInput s

/-- Registers under which a byte `b` meets the conditions `c` of a selection word (R99): in states WHC and WDC
`crc` equal to `b` or not, and in state WHC a header that sums to zero or not and holds 0x55 or not (log 4). -/
def placeConds (st : PState) (b : Byte) (c : Conds) (p : Parser) : Parser :=
  { p with
    st := st
    crc := if st = .whc ∨ st = .wdc then (if c.crcMatch then b else b ^^^ 0xFF) else p.crc
    hbuf := if st = .whc then
        [0, if c.lenZero then 0 else 1, 0, if c.syncBuffered then sync else 0]
      else p.hbuf }

/-- The machine with a selection presented as the next thing to do: a call goes in front of the inputs, with no read in
progress; a selection word sets the registers its key and conditions name, inside a read whose one byte left is its
byte, read at the time of the latest read (log 4). -/
def presentSelection (sel : Selection) (s : State) : State :=
  match sel with
  | .op8 op ports => { s with reading := none, inputs := .call op ports :: s.inputs }
  | .spKey word =>
    match PState.ofCode (keyStateCode word) with
    | some st =>
      { s with
        parser := placeConds st (keyByte word) (keyConds word) s.parser
        reading := some ⟨s.parser.tLast.getD 0, [keyByte word]⟩ }
    | none => s

end Sys2Proof.Machine
end

