-- ==== Sys2Proof/Machine/Step.lean ====
section
/-! DEFINITION. One step: the next part of a read in progress, or what the oldest input asks for (logs 1 and 15). -/

namespace Sys2Proof.Machine

/-- One step of the machine. -/
def step (s : State) : Host.Outcome State Fault Refusal :=
  match fetch s with
  | .idle => .next s
  | .run i s' => exec i s'
  | .did s' => .next s'
  | .refuse r => .refused r

/-- `s` with the instruction of a table word presented as the next thing to do (log 4). -/
def State.withFetchWord (s : State) (nbits w : Nat) : State :=
  match tableSelection nbits w with
  | some sel => presentSelection sel s
  | none => s

end Sys2Proof.Machine
end

