-- ==== Sys2Proof/Safety.lean ====
section
/-! DEFINITION. The terms claims are stated in: an admissible configuration (00_scope.md R8), a well-formed Frame
(10_state.md R23), the invariants of the stream parser (44_stream_parser.md R230) and of the machine. -/

namespace Sys2Proof.Machine

/-- What the source fixes of a code table of `n` rows (R165, R166): its size, distinct codes, uppercase mnemonics, and
that no member is called UNKNOWN (R162, D22). -/
abbrev CodeTable.Admissible (n : Nat) (table : List (Byte × Text)) : Prop :=
  table.length = n ∧ (table.map Prod.fst).Nodup ∧
    ∀ e ∈ table, e.2 ≠ text "UNKNOWN" ∧ ∀ c ∈ e.2, ¬ (97 ≤ c.toNat ∧ c.toNat ≤ 122)

/-- An admissible configuration: the constraints of R8 on the open parameters. -/
abbrev ConfigAdmissible (cfg : Config) : Prop :=
  CodeTable.Admissible 13 cfg.ptTable ∧
  codeName cfg.ptTable 0x01 = some (text "RADIO_ERP1") ∧
  codeName cfg.ptTable 0x02 = some (text "RESPONSE") ∧
  codeName cfg.ptTable 0x0A = some (text "RADIO_ERP2") ∧
  codeName cfg.ptTable 0x08 = none ∧
  text "EVENT" ∈ cfg.ptTable.map Prod.snd ∧
  CodeTable.Admissible 15 cfg.rorgTable ∧
  codeName cfg.rorgTable 0xF6 = some (text "RPS") ∧
  codeName cfg.rorgTable 0xA5 = some (text "4BS") ∧
  codeName cfg.rorgTable 0xD2 = some (text "VLD") ∧
  codeName cfg.rorgTable 0x00 = none ∧
  0 < cfg.timeUnitNs ∧
  dataLenMax + optLenMax ≤ cfg.pbufMax

/-- The two length limits of a Frame (R23). -/
abbrev FrameWithinLimits (f : Frame) : Prop := f.data.length ≤ dataLenMax ∧ f.optData.length ≤ optLenMax

/-- A well-formed Frame (R23). -/
abbrev FrameWellFormed (cfg : Config) (f : Frame) : Prop := FrameWithinLimits f ∧ ptKnown cfg f.packetType = true

/-- A Frame the stream parser may emit (R240): within the limits, not empty, its payload checksum not 0x55, its
packet type one that is emitted (R231). -/
abbrev FrameEmittable (cfg : Config) (f : Frame) : Prop :=
  FrameWithinLimits f ∧ 1 ≤ f.data.length + f.optData.length ∧
    crcFold (f.data ++ f.optData) ≠ sync ∧ emits cfg f.packetType = true

/-- The rows of R230's table. -/
def Parser.StateInv (p : Parser) : Prop :=
  match p.st with
  | .ws => True
  | .wh => p.hbuf.length ≤ 3 ∧ p.crc = crcFold p.hbuf
  | .whc => p.hbuf.length = 4 ∧ p.crc = crcFold p.hbuf
  | .wd => p.pbuf.length < p.payloadTotal ∧ p.crc = crcFold p.pbuf
  | .wdc => p.pbuf.length = p.payloadTotal ∧ 1 ≤ p.payloadTotal ∧ p.crc = crcFold p.pbuf

/-- R230's table with the capacities of the two buffers (R26: `0 <= hcnt <= 4`, and R30's largest fill). -/
structure Parser.Inv (p : Parser) : Prop where
  hbufFits : p.hbuf.length ≤ 4
  pbufFits : p.pbuf.length ≤ dataLenMax + optLenMax
  perState : p.StateInv

/-- The machine's invariant: R230, every Frame handed over or waiting is emittable (R240), a finite queue holds no more
than its depth (R32), outside a read the parser is in WaitSync as long as no read has delivered a byte (R235, R291), and
no read goes on after SP.STOP (R238). -/
structure State.Inv (s : State) : Prop where
  parser : s.parser.Inv
  frames : ∀ f ∈ s.taken ++ s.parser.outq, FrameEmittable s.cfg f
  depth : ∀ d, s.cfg.outqDepth = some d → s.parser.outq.length ≤ d
  firstByte : s.reading = none → s.parser.tLast = none → s.parser.st = .ws
  stopped : s.stopped = true → s.reading = none

/-- The one-shot operations (R16): the operations of U1 to U4 and U6. -/
def oneShot : Instr → Bool
  | .crcStep _ _ | .crcFold _ => true
  | .didToBytes _ | .didToString _ | .didFromHex _ | .didFromBytes _ | .didBroadcast | .didFromU32 _ => true
  | .ptParseByte _ | .ptFormat _ | .rorgParseByte _ | .rorgFormat _ => true
  | .frameSerialize _ | .frameParse _ | .frameFromParts _ _ _ | .frameParseHex _ | .frameSerializeHex _ => true
  | .erp1Decode _ | .erp1Encode _ | .erp1Serialize _ => true
  | .spRead _ _ | .spReadErr _ _ | .spStop | .spReset => false
  | .spWsSync | .spWsSkip _ | .spWhAcc _ | .spWhcOk _ | .spWhcZeroSync | .spWhcZero _ | .spWhcResyncNone _ => false
  | .spWhcResyncCur | .spWhcResyncBuf _ | .spWdAcc _ | .spWdcSync | .spWdcOk _ | .spWdcBad _ => false

/-- The queue has room for what a transition or read has appended: no finite depth is exceeded (R32, log 12). -/
abbrev RoomFor (s : State) (p : Parser) : Prop := overfull s.cfg s.parser p = false

/-- One step of the bitwise definition of the checksum table (R123). -/
def crcBit (c : Byte) : Byte := if c.msb then (c <<< 1) ^^^ 0x07 else c <<< 1

/-- The bitwise definition of the checksum table (R123): eight steps from the index. -/
def crcBitwise (i : Byte) : Byte :=
  crcBit (crcBit (crcBit (crcBit (crcBit (crcBit (crcBit (crcBit i)))))))

/-- The number a byte string spells in base 256, most significant byte first (R53). -/
def bigEndian (bs : ByteString) : Nat := bs.foldl (fun n b => n * 256 + b.toNat) 0

/-- The number a text of hexadecimal digits spells, most significant digit first (R88); a character that is no digit
counts as 0. -/
def hexNumber (str : Text) : Nat := str.foldl (fun n c => n * 16 + ((hexVal c).getD 0).toNat) 0

/-- Every character is a hexadecimal digit (R94). -/
abbrev AllHex (str : Text) : Prop := ∀ c ∈ str, (hexVal c).isSome = true

/-- The byte a transition processes: 0x55 where its key fixes it (R99, mask 0x7FF), otherwise the byte given. -/
def transitionByte (tr : Transition) (b : Byte) : Byte :=
  match tr with
  | .wsSync | .whcZeroSync | .whcResyncCur | .wdcSync => sync
  | .wsSkip | .whAcc | .whcOk | .whcZero | .whcResyncNone | .whcResyncBuf | .wdAcc | .wdcOk | .wdcBad => b

/-- Instructions one after another, ending at the first that does not answer a next state. -/
def execAll : List Instr → State → Host.Outcome State Fault Refusal
  | [], s => .next s
  | i :: rest, s =>
    match exec i s with
    | .next s' => execAll rest s'
    | .fault r => .fault r
    | .refused r => .refused r

/-- Steps one after another, ending at the first that does not answer a next state. -/
def runSteps : Nat → State → Host.Outcome State Fault Refusal
  | 0, s => .next s
  | n + 1, s =>
    match step s with
    | .next s' => runSteps n s'
    | .fault r => .fault r
    | .refused r => .refused r

/-- The reads of a list as instructions (R61, R233). -/
def readInstrs (reads : List (Nat × ByteString)) : List Instr := reads.map fun r => .spRead r.1 r.2

/-- The bytes a list of reads delivers, in order. -/
def readBytesOf (reads : List (Nat × ByteString)) : ByteString := reads.flatMap Prod.snd

/-- A sequence of reads, each a time stamp and its bytes, on the registers (R61, R233). -/
def runReads (cfg : Config) (reads : List (Nat × ByteString)) (p : Parser) : Parser :=
  reads.foldl (fun q r => readBytes cfg r.1 r.2 q) p

/-- In a sequence of reads the gap rule never fires (R237): no non-empty read comes 100 ms or more after the latest
earlier one. -/
def gapFree (cfg : Config) (tLast : Option Nat) : List (Nat × ByteString) → Bool
  | [] => true
  | (t, bytes) :: rest =>
    if bytes = [] then gapFree cfg tLast rest
    else !gapElapsed cfg tLast t && gapFree cfg (some t) rest

end Sys2Proof.Machine
end

