-- ==== Sys2Proof/Certificates/Slice0/Obligations.lean ====
section
/-! DEFINITION. The statements for the provers. Each docstring names the rule or the section of spec/ it comes from; a
statement marked "derived" rests on an inference or a decision the spec marks as its own, or on a log entry. -/

open Sys2Proof Sys2Proof.Machine

/-! ## U1, the checksum engine -/

/-- R124: `CRC.STEP` answers the entry of the table, read in ascending index order (R121), at `byte ^ crc`, for every
operand pair, and nothing but the outcome is written. -/
def Obligations.CrcStepReadsTheTable : Prop :=
  ∀ (byte crc : Byte) (s : State),
    exec (.crcStep byte crc) s =
      .next { s with result := some (.ok (.byte (byteAt crcTable.flatten (byte ^^^ crc).toNat))) }

/-- Derived (40_checksum.md section 2, the audit of the table): every entry is that of the bitwise definition, and the
table is a permutation. -/
def Obligations.TableIsTheBitwiseCrc : Prop :=
  (∀ i : Byte, tableRead i = crcBitwise i) ∧
    (∀ i j : Byte, tableRead i = tableRead j → i = j) ∧ ∀ v : Byte, ∃ i : Byte, tableRead i = v

/-- R125: `CRC.FOLD` answers 0 on the empty string, and one byte more is one step more. -/
def Obligations.FoldAppliesStepFromZero : Prop :=
  ∀ (bytes : ByteString) (s : State), ∃ c : Byte,
    exec (.crcFold bytes) s = .next { s with result := some (.ok (.byte c)) } ∧
      (bytes = [] → c = 0) ∧
      ∀ b : Byte, exec (.crcFold (bytes ++ [b])) s =
        .next { s with result := some (.ok (.byte (tableRead (b ^^^ c)))) }

/-- Derived (40_checksum.md section 4): a string followed by its own checksum folds to 0; so do the header with CRC8H
and the payload with CRC8D of every serialized frame. -/
def Obligations.ChecksumOfCheckedStringIsZero : Prop :=
  (∀ (bytes : ByteString) (c : Byte) (s : State),
    exec (.crcFold bytes) s = .next { s with result := some (.ok (.byte c)) } →
      exec (.crcFold (bytes ++ [c])) s = .next { s with result := some (.ok (.byte 0)) }) ∧
  ∀ (f : Frame) (w : ByteString) (s : State),
    exec (.frameSerialize f) s = .next { s with result := some (.ok (.bytes w)) } →
      crcFold (slice w 1 6) = 0 ∧ crcFold (slice w 6 w.length) = 0

/-- Derived (40_checksum.md section 4): the fold is linear over exclusive-or on strings of equal length. -/
def Obligations.ChecksumIsLinear : Prop :=
  ∀ a b : ByteString, a.length = b.length →
    crcFold (List.zipWith (· ^^^ ·) a b) = crcFold a ^^^ crcFold b

/-- Derived (40_checksum.md section 4): two strings that differ in exactly one byte have different checksums. -/
def Obligations.OneWrongByteChangesTheChecksum : Prop :=
  ∀ (before after : ByteString) (x y : Byte), x ≠ y →
    crcFold (before ++ x :: after) ≠ crcFold (before ++ y :: after)

/-! ## U2, the device-identifier codec -/

/-- R140, R141, R145: `DID.TO_BYTES` answers four bytes that spell the identifier, most significant first;
`DID.FROM_U32` answers its operand, `DID.BROADCAST` all ones. -/
def Obligations.IdentifierBytesAreBigEndian : Prop :=
  ∀ (id : Word) (s : State),
    (∃ b0 b1 b2 b3 : Byte,
      exec (.didToBytes id) s = .next { s with result := some (.ok (.bytes [b0, b1, b2, b3])) } ∧
        id.toNat = b0.toNat * 16777216 + b1.toNat * 65536 + b2.toNat * 256 + b3.toNat) ∧
    exec (.didFromU32 id) s = .next { s with result := some (.ok (.ident id)) } ∧
    exec .didBroadcast s = .next { s with result := some (.ok (.ident 0xFFFFFFFF)) }

/-- R142: `DID.TO_STRING` answers exactly eight characters, each `0`-`9` or `a`-`f`, that spell the identifier, most
significant digit first. -/
def Obligations.IdentifierTextIsEightLowercaseDigits : Prop :=
  ∀ (id : Word) (s : State), ∃ str : Text,
    exec (.didToString id) s = .next { s with result := some (.ok (.text str)) } ∧
      str.length = 8 ∧
      (∀ c ∈ str, (48 ≤ c.toNat ∧ c.toNat ≤ 57) ∨ (97 ≤ c.toNat ∧ c.toNat ≤ 102)) ∧
      hexNumber str = id.toNat

/-- R143: `DID.FROM_BYTES` answers `InvalidLength` exactly for more than four bytes, and otherwise the number the bytes
spell, most significant first. -/
def Obligations.FromBytesPadsOrRejects : Prop :=
  ∀ (bytes : ByteString) (s : State),
    (4 < bytes.length →
      exec (.didFromBytes bytes) s = .next { s with result := some (.err .invalidLength) }) ∧
    (bytes.length ≤ 4 →
      exec (.didFromBytes bytes) s =
        .next { s with result := some (.ok (.ident (BitVec.ofNat 32 (bigEndian bytes)))) })

/-- Derived (41_device_identifier.md, the steps of `DID.FROM_HEX`, with decision D12 of 92_eei_decisions.md for the
digits): one leading `"0x"` is removed; more than eight characters left is `InvalidLength`; else a character that is
no digit is `InvalidHex`; else the number the digits spell. -/
def Obligations.FromHexStepsInOrder : Prop :=
  ∀ (str rest : Text) (s : State),
    (str = text "0x" ++ rest ∨ (str = rest ∧ ∀ more : Text, str ≠ text "0x" ++ more)) →
      (8 < rest.length →
        exec (.didFromHex str) s = .next { s with result := some (.err .invalidLength) }) ∧
      (rest.length ≤ 8 → ¬ AllHex rest →
        exec (.didFromHex str) s = .next { s with result := some (.err .invalidHex) }) ∧
      (rest.length ≤ 8 → AllHex rest →
        exec (.didFromHex str) s =
          .next { s with result := some (.ok (.ident (BitVec.ofNat 32 (hexNumber rest)))) })

/-- Derived (41_device_identifier.md, round trips): an identifier survives its bytes and its text, and four bytes
survive the identifier they make. -/
def Obligations.IdentifierRoundTrips : Prop :=
  ∀ s : State,
    (∀ (id : Word) (bytes : ByteString),
      exec (.didToBytes id) s = .next { s with result := some (.ok (.bytes bytes)) } →
        exec (.didFromBytes bytes) s = .next { s with result := some (.ok (.ident id)) }) ∧
    (∀ (id : Word) (str : Text),
      exec (.didToString id) s = .next { s with result := some (.ok (.text str)) } →
        exec (.didFromHex str) s = .next { s with result := some (.ok (.ident id)) }) ∧
    (∀ (id : Word) (bytes : ByteString), bytes.length = 4 →
      exec (.didFromBytes bytes) s = .next { s with result := some (.ok (.ident id)) } →
        exec (.didToBytes id) s = .next { s with result := some (.ok (.bytes bytes)) })

/-! ## U3, the code enumerations -/

/-- R161, R163: `PARSE_BYTE` answers the byte for a member of the code set and `UnknownCode` for every other byte. -/
def Obligations.ParseByteIsStrict : Prop :=
  ∀ (b : Byte) (s : State),
    (b ∈ s.cfg.ptTable.map Prod.fst →
      exec (.ptParseByte b) s = .next { s with result := some (.ok (.byte b)) }) ∧
    (b ∉ s.cfg.ptTable.map Prod.fst →
      exec (.ptParseByte b) s = .next { s with result := some (.err .unknownCode) }) ∧
    (b ∈ s.cfg.rorgTable.map Prod.fst →
      exec (.rorgParseByte b) s = .next { s with result := some (.ok (.byte b)) }) ∧
    (b ∉ s.cfg.rorgTable.map Prod.fst →
      exec (.rorgParseByte b) s = .next { s with result := some (.err .unknownCode) })

/-- R162, R164: `FORMAT` answers a member's mnemonic and `"UNKNOWN"` for every other value. The premise, that no code
stands twice in a table, holds for every admissible configuration (R8). -/
def Obligations.FormatGivesMnemonicOrUnknown : Prop :=
  ∀ (v : Byte) (name : Text) (s : State),
    (s.cfg.ptTable.map Prod.fst).Nodup → (s.cfg.rorgTable.map Prod.fst).Nodup →
      ((v, name) ∈ s.cfg.ptTable →
        exec (.ptFormat v) s = .next { s with result := some (.ok (.text name)) }) ∧
      (v ∉ s.cfg.ptTable.map Prod.fst →
        exec (.ptFormat v) s = .next { s with result := some (.ok (.text (text "UNKNOWN"))) }) ∧
      ((v, name) ∈ s.cfg.rorgTable →
        exec (.rorgFormat v) s = .next { s with result := some (.ok (.text name)) }) ∧
      (v ∉ s.cfg.rorgTable.map Prod.fst →
        exec (.rorgFormat v) s = .next { s with result := some (.ok (.text (text "UNKNOWN"))) })

/-- Derived (42_code_enumerations.md, what the source fixes of the two tables, and 00_scope.md section 4): in every
admissible configuration the two code sets have 13 and 15 members, some of the source's codes parse and format as the
source says, 0x08 is no packet type and 0x00 no RORG. -/
def Obligations.SourceGivenCodesHold : Prop :=
  ∀ s : State, ConfigAdmissible s.cfg →
    ((List.range 256).countP fun n => ptKnown s.cfg (BitVec.ofNat 8 n)) = 13 ∧
    ((List.range 256).countP fun n => rorgKnown s.cfg (BitVec.ofNat 8 n)) = 15 ∧
    exec (.ptParseByte 0x01) s = .next { s with result := some (.ok (.byte 0x01)) } ∧
    exec (.ptParseByte 0x08) s = .next { s with result := some (.err .unknownCode) } ∧
    exec (.ptFormat 0x0A) s = .next { s with result := some (.ok (.text (text "RADIO_ERP2"))) } ∧
    exec (.rorgParseByte 0xD2) s = .next { s with result := some (.ok (.byte 0xD2)) } ∧
    exec (.rorgParseByte 0x00) s = .next { s with result := some (.err .unknownCode) } ∧
    exec (.rorgFormat 0xA5) s = .next { s with result := some (.ok (.text (text "4BS"))) }

/-! ## U4, the frame model -/

/-- Derived (43_frame.md section 1; the limits are the source's): within the limits `FRAME.FROM_PARTS` answers the Frame
of its operands, whatever the packet type. -/
def Obligations.FromPartsKeepsItsParts : Prop :=
  ∀ (pt : Byte) (data optData : ByteString) (s : State),
    data.length ≤ 65535 → optData.length ≤ 255 →
      exec (.frameFromParts pt data optData) s =
        .next { s with result := some (.ok (.frame ⟨pt, data, optData⟩)) }

/-- R80: `FRAME.SERIALIZE` of a Frame within the limits answers
`SYNC | DATA_LEN_HI | DATA_LEN_LO | OPT_LEN | PACKET_TYPE | CRC8H | DATA | OPT_DATA | CRC8D`. -/
def Obligations.SerializeWritesTheWireFormat : Prop :=
  ∀ (f : Frame) (s : State), FrameWithinLimits f → ∃ hi lo opt : Byte,
    hi.toNat * 256 + lo.toNat = f.data.length ∧ opt.toNat = f.optData.length ∧
      exec (.frameSerialize f) s =
        .next { s with result := some (.ok (.bytes
          ([0x55, hi, lo, opt, f.packetType, crcFold [hi, lo, opt, f.packetType]] ++ f.data ++ f.optData ++
            [crcFold (f.data ++ f.optData)]))) }

/-- Derived (decision D11 of 92_eei_decisions.md): lengths over the limits are the outcome `fault(F_LEN_LIMIT)` of the
five operations that would have to put them in a header; no value is produced. -/
def Obligations.OverLongLengthsAreFaults : Prop :=
  ∀ (f : Frame) (p : Erp1Packet) (s : State),
    (65535 < f.data.length ∨ 255 < f.optData.length →
      exec (.frameFromParts f.packetType f.data f.optData) s = .next { s with result := some (.fault .lenLimit) } ∧
      exec (.frameSerialize f) s = .next { s with result := some (.fault .lenLimit) } ∧
      exec (.frameSerializeHex f) s = .next { s with result := some (.fault .lenLimit) }) ∧
    (65529 < p.userData.length →
      exec (.erp1Encode p) s = .next { s with result := some (.fault .lenLimit) } ∧
      exec (.erp1Serialize p) s = .next { s with result := some (.fault .lenLimit) })

/-- R184: the order of the checks of `FRAME.PARSE`: length, sync byte, header checksum, packet-type code, payload
checksum, last the slicing. A string of at least seven bytes is six header bytes, a payload and a last byte. -/
def Obligations.FrameParseFirstFailingCheckDecides : Prop :=
  (∀ (w : ByteString) (s : State), w.length < 7 →
    exec (.frameParse w) s = .next { s with result := some (.err .tooShort) }) ∧
  ∀ (b0 b1 b2 b3 b4 b5 c : Byte) (payload : ByteString) (s : State),
    let run := exec (.frameParse ([b0, b1, b2, b3, b4, b5] ++ payload ++ [c])) s
    (b0 ≠ 0x55 → run = .next { s with result := some (.err .missingSync) }) ∧
    (b0 = 0x55 → crcFold [b1, b2, b3, b4] ≠ b5 →
      run = .next { s with result := some (.err .headerChecksumMismatch) }) ∧
    (b0 = 0x55 → crcFold [b1, b2, b3, b4] = b5 → b4 ∉ s.cfg.ptTable.map Prod.fst →
      run = .next { s with result := some (.err .unknownCode) }) ∧
    (b0 = 0x55 → crcFold [b1, b2, b3, b4] = b5 → b4 ∈ s.cfg.ptTable.map Prod.fst → crcFold payload ≠ c →
      run = .next { s with result := some (.err .payloadChecksumMismatch) }) ∧
    (b0 = 0x55 → crcFold [b1, b2, b3, b4] = b5 → b4 ∈ s.cfg.ptTable.map Prod.fst → crcFold payload = c →
      b1.toNat * 256 + b2.toNat ≤ payload.length →
        run = .next { s with result := some (.ok (.frame
          ⟨b4, payload.take (b1.toNat * 256 + b2.toNat), payload.drop (b1.toNat * 256 + b2.toNat)⟩)) })

/-- Derived (decision D10 of 92_eei_decisions.md): a `data_len` that reaches past the payload, every check passed, is
the outcome `fault(F_SLICE_RANGE)`. -/
def Obligations.FrameParseMissingSliceIsAFault : Prop :=
  ∀ (b1 b2 b3 b4 : Byte) (payload : ByteString) (s : State),
    b4 ∈ s.cfg.ptTable.map Prod.fst → payload.length < b1.toNat * 256 + b2.toNat →
      exec (.frameParse ([0x55, b1, b2, b3, b4, crcFold [b1, b2, b3, b4]] ++ payload ++ [crcFold payload])) s =
        .next { s with result := some (.fault .sliceRange) }

/-- Derived (43_frame.md section 4, 30_encoding.md section 5, decision D12): the text forms. The text of a Frame is two
digits a byte of its serialization, and parses back to it; parsing the text of any bytes gives what parsing the bytes
gives, Frame, error or fault; an odd-length text is read with one `"0"` before it; only the digits' values matter; a
character that is no digit is `InvalidHex`. -/
def Obligations.FrameHexTextForms : Prop :=
  (∀ (f : Frame) (s : State), FrameWithinLimits f → ∃ (w : ByteString) (str : Text),
    exec (.frameSerialize f) s = .next { s with result := some (.ok (.bytes w)) } ∧
    exec (.frameSerializeHex f) s = .next { s with result := some (.ok (.text str)) } ∧
    str.length = 2 * w.length ∧ hexNumber str = bigEndian w ∧
    (∀ c ∈ str, (48 ≤ c.toNat ∧ c.toNat ≤ 57) ∨ (97 ≤ c.toNat ∧ c.toNat ≤ 102)) ∧
    (f.packetType ∈ s.cfg.ptTable.map Prod.fst →
      exec (.frameParseHex str) s = .next { s with result := some (.ok (.frame f)) })) ∧
  (∀ (w : ByteString) (s : State), exec (.frameParseHex (hexEnc w)) s = exec (.frameParse w) s) ∧
  (∀ (str : Text) (s : State), str.length % 2 = 1 →
    exec (.frameParseHex str) s = exec (.frameParseHex (text "0" ++ str)) s) ∧
  (∀ (str other : Text) (s : State), str.map hexVal = other.map hexVal →
    exec (.frameParseHex str) s = exec (.frameParseHex other) s) ∧
  ∀ (str : Text) (s : State), ¬ AllHex str →
    exec (.frameParseHex str) s = .next { s with result := some (.err .invalidHex) }

/-- Derived (43_frame.md section 3, the source's round trip): parsing the serialization of a Frame within the limits
whose packet type is known gives the Frame back. -/
def Obligations.FrameParseInvertsSerialize : Prop :=
  ∀ (f : Frame) (s : State), FrameWithinLimits f → f.packetType ∈ s.cfg.ptTable.map Prod.fst →
    ∃ w : ByteString,
      exec (.frameSerialize f) s = .next { s with result := some (.ok (.bytes w)) } ∧
        w.length = 7 + f.data.length + f.optData.length ∧
        exec (.frameParse w) s = .next { s with result := some (.ok (.frame f)) }

/-- Derived (43_frame.md section 2): two Frames with the same serialization are equal, known packet type or not. -/
def Obligations.SerializeIsInjective : Prop :=
  ∀ (f g : Frame) (w : ByteString) (s : State),
    exec (.frameSerialize f) s = .next { s with result := some (.ok (.bytes w)) } →
    exec (.frameSerialize g) s = .next { s with result := some (.ok (.bytes w)) } → f = g

/-! ## U5, the stream parser: the transitions

Each statement gives the whole next state. A premise that fixes the length of a buffer is an invariant of its state
(StepKeepsInvariant). -/

/-- R212. -/
def Obligations.WsSyncOpensAHeader : Prop :=
  ∀ s : State, s.stopped = false → s.parser.st = .ws →
    exec .spWsSync s = .next { s with parser := { s.parser with hbuf := [], crc := 0x00, st := .wh } }

/-- R213. -/
def Obligations.WsSkipWritesNothing : Prop :=
  ∀ (b : Byte) (s : State), s.stopped = false → s.parser.st = .ws → b ≠ 0x55 → exec (.spWsSkip b) s = .next s

/-- R214. -/
def Obligations.WhAccBuffersAndFolds : Prop :=
  ∀ (b : Byte) (s : State), s.stopped = false → s.parser.st = .wh →
    exec (.spWhAcc b) s = .next { s with parser := { s.parser with
      hbuf := s.parser.hbuf ++ [b]
      crc := tableRead (b ^^^ s.parser.crc)
      st := if s.parser.hbuf.length = 3 then .whc else .wh } }

/-- R216. -/
def Obligations.WhcOkLatchesTheHeader : Prop :=
  ∀ (h0 h1 h2 h3 : Byte) (s : State), s.stopped = false → s.parser.st = .whc →
    s.parser.hbuf = [h0, h1, h2, h3] → (h0 ≠ 0 ∨ h1 ≠ 0 ∨ h2 ≠ 0) →
      exec (.spWhcOk s.parser.crc) s = .next { s with parser := { s.parser with
        dlen := BitVec.ofNat 16 (h0.toNat * 256 + h1.toNat)
        olen := h2
        ptc := h3
        pbuf := []
        crc := 0x00
        st := .wd } }

/-- Derived (44_stream_parser.md section 4, with decision D6 for `crc`): the checksum byte of a header that announces
nothing is 0x55: a new header begins. -/
def Obligations.WhcZeroSyncRestarts : Prop :=
  ∀ (h3 : Byte) (s : State), s.stopped = false → s.parser.st = .whc →
    s.parser.hbuf = [0, 0, 0, h3] → s.parser.crc = 0x55 →
      exec .spWhcZeroSync s = .next { s with parser := { s.parser with
        dlen := 0, olen := 0, ptc := h3, hbuf := [], crc := 0x00, st := .wh } }

/-- R218. -/
def Obligations.WhcZeroDropsTheFrame : Prop :=
  ∀ (h3 : Byte) (s : State), s.stopped = false → s.parser.st = .whc →
    s.parser.hbuf = [0, 0, 0, h3] → s.parser.crc ≠ 0x55 →
      exec (.spWhcZero s.parser.crc) s = .next { s with parser := { s.parser with
        dlen := 0, olen := 0, ptc := h3, st := .ws } }

/-- R220. -/
def Obligations.WhcResyncNoneDiscards : Prop :=
  ∀ (b : Byte) (s : State), s.stopped = false → s.parser.st = .whc →
    b ≠ s.parser.crc → 0x55 ∉ s.parser.hbuf → b ≠ 0x55 →
      exec (.spWhcResyncNone b) s = .next { s with parser := { s.parser with st := .ws } }

/-- Derived (44_stream_parser.md section 4, with decision D6 for `crc`). -/
def Obligations.WhcResyncCurRestarts : Prop :=
  ∀ s : State, s.stopped = false → s.parser.st = .whc → s.parser.crc ≠ 0x55 → 0x55 ∉ s.parser.hbuf →
    exec .spWhcResyncCur s = .next { s with parser := { s.parser with hbuf := [], crc := 0x00, st := .wh } }

/-- Derived (44_stream_parser.md section 4, with decisions D7 and D8): the bytes after the first 0x55 of the header
buffer, and the current byte, are the new header; the checksum is folded anew over all of them. -/
def Obligations.WhcResyncBufKeepsTheRest : Prop :=
  ∀ (b : Byte) (before after : ByteString) (s : State), s.stopped = false → s.parser.st = .whc →
    b ≠ s.parser.crc → s.parser.hbuf = before ++ 0x55 :: after → 0x55 ∉ before → s.parser.hbuf.length = 4 →
      exec (.spWhcResyncBuf b) s = .next { s with parser := { s.parser with
        hbuf := after ++ [b]
        crc := crcFold (after ++ [b])
        st := if before = [] then .whc else .wh } }

/-- R224. -/
def Obligations.WdAccBuffersAndFolds : Prop :=
  ∀ (b : Byte) (s : State), s.stopped = false → s.parser.st = .wd →
    exec (.spWdAcc b) s = .next { s with parser := { s.parser with
      pbuf := s.parser.pbuf ++ [b]
      crc := tableRead (b ^^^ s.parser.crc)
      st := if s.parser.pbuf.length + 1 = s.parser.dlen.toNat + s.parser.olen.toNat then .wdc else .wd } }

/-- Derived (44_stream_parser.md section 6, with decision D6 for `crc`): whatever the running checksum, a byte 0x55
abandons the frame. -/
def Obligations.WdcSyncAbandons : Prop :=
  ∀ s : State, s.stopped = false → s.parser.st = .wdc →
    exec .spWdcSync s = .next { s with parser := { s.parser with hbuf := [], crc := 0x00, st := .wh } }

/-- R229: `SP.WDC.OK` with a known packet type emits the Frame of `ptc` and the two slices of the payload buffer, behind
every Frame emitted earlier. The premise on a finite queue depth is the room it needs (R32). -/
def Obligations.WdcOkEmitsTheFrame : Prop :=
  ∀ s : State, s.stopped = false → s.parser.st = .wdc → s.parser.crc ≠ 0x55 →
    s.parser.pbuf.length = s.parser.dlen.toNat + s.parser.olen.toNat →
    s.parser.ptc ∈ s.cfg.ptTable.map Prod.fst →
    (∀ depth, s.cfg.outqDepth = some depth → s.parser.outq.length < depth) →
      exec (.spWdcOk s.parser.crc) s = .next { s with parser := { s.parser with
        outq := s.parser.outq ++
          [⟨s.parser.ptc, s.parser.pbuf.take s.parser.dlen.toNat, s.parser.pbuf.drop s.parser.dlen.toNat⟩]
        st := .ws } }

/-- R228. -/
def Obligations.WdcBadDropsTheFrame : Prop :=
  ∀ (b : Byte) (s : State), s.stopped = false → s.parser.st = .wdc → b ≠ 0x55 → b ≠ s.parser.crc →
    exec (.spWdcBad b) s = .next { s with parser := { s.parser with st := .ws } }

/-- Derived (decision D9 of 92_eei_decisions.md): at a right payload checksum an unknown packet type emits nothing with
`SP_UNKNOWN_PT = drop`, and the Frame with the raw byte with `emit_raw`. -/
def Obligations.UnknownPacketTypeAtEmission : Prop :=
  ∀ s : State, s.stopped = false → s.parser.st = .wdc → s.parser.crc ≠ 0x55 →
    s.parser.ptc ∉ s.cfg.ptTable.map Prod.fst →
      (s.cfg.spUnknownPt = .drop →
        exec (.spWdcOk s.parser.crc) s = .next { s with parser := { s.parser with st := .ws } }) ∧
      (s.cfg.spUnknownPt = .emitRaw →
        s.parser.pbuf.length = s.parser.dlen.toNat + s.parser.olen.toNat →
        (∀ depth, s.cfg.outqDepth = some depth → s.parser.outq.length < depth) →
          exec (.spWdcOk s.parser.crc) s = .next { s with parser := { s.parser with
            outq := s.parser.outq ++
              [⟨s.parser.ptc, s.parser.pbuf.take s.parser.dlen.toNat, s.parser.pbuf.drop s.parser.dlen.toNat⟩]
            st := .ws } })

/-- Derived (30_encoding.md section 7, the conditions of the transition table; the codes are decision D3's): which
transition the registers and the byte select. -/
def Obligations.TransitionSelectionTable : Prop :=
  ∀ (p : Parser) (b : Byte),
    let total := (byteAt p.hbuf 0).toNat * 256 + (byteAt p.hbuf 1).toNat + (byteAt p.hbuf 2).toNat
    (p.selected b = .wsSync ↔ p.st = .ws ∧ b = 0x55) ∧
    (p.selected b = .wsSkip ↔ p.st = .ws ∧ b ≠ 0x55) ∧
    (p.selected b = .whAcc ↔ p.st = .wh) ∧
    (p.selected b = .whcOk ↔ p.st = .whc ∧ b = p.crc ∧ total ≠ 0) ∧
    (p.selected b = .whcZeroSync ↔ p.st = .whc ∧ b = p.crc ∧ total = 0 ∧ b = 0x55) ∧
    (p.selected b = .whcZero ↔ p.st = .whc ∧ b = p.crc ∧ total = 0 ∧ b ≠ 0x55) ∧
    (p.selected b = .whcResyncNone ↔ p.st = .whc ∧ b ≠ p.crc ∧ 0x55 ∉ p.hbuf ∧ b ≠ 0x55) ∧
    (p.selected b = .whcResyncCur ↔ p.st = .whc ∧ b ≠ p.crc ∧ 0x55 ∉ p.hbuf ∧ b = 0x55) ∧
    (p.selected b = .whcResyncBuf ↔ p.st = .whc ∧ b ≠ p.crc ∧ 0x55 ∈ p.hbuf) ∧
    (p.selected b = .wdAcc ↔ p.st = .wd) ∧
    (p.selected b = .wdcSync ↔ p.st = .wdc ∧ b = 0x55) ∧
    (p.selected b = .wdcOk ↔ p.st = .wdc ∧ b ≠ 0x55 ∧ b = p.crc) ∧
    (p.selected b = .wdcBad ↔ p.st = .wdc ∧ b ≠ 0x55 ∧ b ≠ p.crc)

/-- Derived (44_stream_parser.md section 1; the refusal is the model's choice, log 16): of the thirteen transitions with
their byte, the selected one runs, which is what a read does with the byte, and every other one is refused. -/
def Obligations.ExactlyTheSelectedTransitionRuns : Prop :=
  ∀ (tr : Transition) (b : Byte) (s : State), s.stopped = false → RoomFor s (processByte s.cfg s.parser b) →
    transitionByte tr b = b →
      (s.parser.selected b = tr →
        exec (tr.instr b) s = .next { s with parser := processByte s.cfg s.parser b }) ∧
      (s.parser.selected b ≠ tr → exec (tr.instr b) s = .refused .notSelected)

/-! ## U5, the stream parser: the events -/

/-- Derived (44_stream_parser.md section 7, the text of `SP.READ`, with decision D14; the time base in nanoseconds is the
model's choice, log 11): an empty read returns at once; a non-empty one applies the gap rule, then one transition a byte
in string order, and records its time. The gap is 100 ms of `TIME_UNIT`s, and `t - t_last` is 0 when `t < t_last`. -/
def Obligations.ReadAppliesGapRuleThenTransitions : Prop :=
  ∀ (t : Nat) (s : State), s.stopped = false →
    exec (.spRead t []) s = .next s ∧
    ∀ (b : Byte) (bytes : ByteString) (start : Parser),
      (((∃ t0, s.parser.tLast = some t0 ∧ 100000000 ≤ (t - t0) * s.cfg.timeUnitNs) ∧
          start = { s.parser with st := .ws }) ∨
        ((∀ t0, s.parser.tLast = some t0 → (t - t0) * s.cfg.timeUnitNs < 100000000) ∧ start = s.parser)) →
      RoomFor s ((b :: bytes).foldl (processByte s.cfg) start) →
        exec (.spRead t (b :: bytes)) s =
          .next { s with parser := { (b :: bytes).foldl (processByte s.cfg) start with tLast := some t } }

/-- Derived (44_stream_parser.md section 7, with decision D14 for the time base, `none` and decreasing time stamps; the
unit in nanoseconds is log 11): with a time unit of one millisecond, elapsed 100 forces WaitSync before the bytes;
elapsed 99, a time stamp that decreases, and a first read do not: the bytes are processed from the registers as they
are. -/
def Obligations.GapOfHundredMillisecondsForcesWaitSync : Prop :=
  ∀ (t : Nat) (b : Byte) (bytes : ByteString) (s : State), s.stopped = false → s.cfg.timeUnitNs = 1000000 →
    let forced := (b :: bytes).foldl (processByte s.cfg) { s.parser with st := .ws }
    let unforced := (b :: bytes).foldl (processByte s.cfg) s.parser
    (∀ t0, s.parser.tLast = some t0 → t0 + 100 ≤ t → RoomFor s forced →
      exec (.spRead t (b :: bytes)) s = .next { s with parser := { forced with tLast := some t } }) ∧
    (∀ t0, s.parser.tLast = some t0 → t < t0 + 100 → RoomFor s unforced →
      exec (.spRead t (b :: bytes)) s = .next { s with parser := { unforced with tLast := some t } }) ∧
    (s.parser.tLast = none → RoomFor s unforced →
      exec (.spRead t (b :: bytes)) s = .next { s with parser := { unforced with tLast := some t } })

/-- R236: a read error is reported and no register is written, `t_last` included. -/
def Obligations.ReadErrorOnlyReports : Prop :=
  ∀ (t : Nat) (info : Text) (s : State), s.stopped = false →
    exec (.spReadErr t info) s = .next { s with reports := s.reports ++ [info] }

/-- Derived (44_stream_parser.md section 7, decision D21): a stop writes no register and emits nothing; afterwards every
event but SP.RESET, and every transition, is refused; a reset is accepted. -/
def Obligations.StopEndsTheRun : Prop :=
  (∀ s : State, s.stopped = false → exec .spStop s = .next { s with stopped := true }) ∧
  ∀ s : State, s.stopped = true →
    (∀ t bytes, exec (.spRead t bytes) s = .refused .afterStop) ∧
    (∀ t info, exec (.spReadErr t info) s = .refused .afterStop) ∧
    exec .spStop s = .refused .afterStop ∧
    (∀ (tr : Transition) (b : Byte), exec (tr.instr b) s = .refused .afterStop) ∧
    ∃ s', exec .spReset s = .next s' ∧ s'.stopped = false

/-- Derived (10_state.md section 5, decision D5; `stopped` is the model's field, log 8): SP.RESET, at any time, puts
every register at its reset value and ends a stop; the parameters and the interface fields stay. -/
def Obligations.ResetRestoresEveryRegister : Prop :=
  ∀ s : State, exec .spReset s = .next { s with
    parser := { st := .ws, crc := 0x00, hbuf := [], dlen := 0, olen := 0, ptc := 0, pbuf := [], tLast := none, outq := [] }
    stopped := false }

/-- Derived (93_implementation_defined.md U7; the point of the refusal is the model's choice, log 12): a read that emits
beyond a finite queue depth is refused; with an unbounded queue no read is. -/
def Obligations.FullQueueIsRefused : Prop :=
  ∀ (t : Nat) (bytes : ByteString) (s : State), s.stopped = false →
    let after := (readBytes s.cfg t bytes s.parser).outq.length
    (∀ depth, s.cfg.outqDepth = some depth → s.parser.outq.length < after → depth < after →
      exec (.spRead t bytes) s = .refused .outqFull) ∧
    (s.cfg.outqDepth = none → ∃ s', exec (.spRead t bytes) s = .next s')

/-- Derived (10_state.md R26 to R32 sections, 60_exceptions.md section 2): no instruction writes the parameters, the
inputs, the bytes of a read in progress or the taken Frames; events and transitions return no outcome; without a reset no emitted Frame is lost or
reordered. -/
def Obligations.EventsKeepOutcomesAndQueueOrder : Prop :=
  ∀ (i : Instr) (s s' : State), exec i s = .next s' →
    s'.cfg = s.cfg ∧ s'.inputs = s.inputs ∧ s'.reading = s.reading ∧ s'.taken = s.taken ∧
    (oneShot i = false → s'.result = s.result) ∧
    (i ≠ .spReset → s.parser.outq <+: s'.parser.outq)

/-! ## U5, the stream parser: invariants and guarantees -/

/-- The machine meets its invariant right after reset (10_state.md section 5). -/
def Obligations.ResetMeetsInvariant : Prop := State.reset.Inv ∧ ConfigAdmissible State.reset.cfg

/-- Derived (44_stream_parser.md sections 6, 7 and 8, 60_exceptions.md section 5): every step from a state that meets the
invariant leads to one that meets it. The invariant says among the rest that no byte reaches the parser outside a read:
outside a read, and with no read before it, the parser is in WaitSync. -/
def Obligations.StepKeepsInvariant : Prop :=
  ∀ s s' : State, s.Inv → step s = .next s' → s'.Inv

/-- Derived (44_stream_parser.md section 8, no corrupted Frame): from WaitSync, whenever a byte makes the parser emit a
Frame, the bytes processed end in that Frame's serialization, whose payload checksum is not 0x55; with `drop`,
FRAME.PARSE gives the Frame back. -/
def Obligations.EmittedFramesArriveWhole : Prop :=
  ∀ (cfg : Config) (p : Parser) (bytes : ByteString) (b : Byte) (f : Frame), p.st = .ws →
    (processBytes cfg p (bytes ++ [b])).outq = (processBytes cfg p bytes).outq ++ [f] →
      frameBytes f <:+ bytes ++ [b] ∧ FrameEmittable cfg f ∧
        ∀ s : State, s.cfg = cfg → cfg.spUnknownPt = .drop →
          exec (.frameSerialize f) s = .next { s with result := some (.ok (.bytes (frameBytes f))) } ∧
          exec (.frameParse (frameBytes f)) s = .next { s with result := some (.ok (.frame f)) }

/-- Derived (44_stream_parser.md sections 7 and 8, 70_reset_and_hazards.md section 2): bytes without 0x55 and then a
serialized Frame, cut into reads in any way, emit exactly that Frame and leave the parser in WaitSync, if no read after
the one that delivers the Frame's first byte fires the gap rule. A gap before that read or among the bytes before the
Frame is allowed. The parser starts in WaitSync, or a gap before the read with the Frame's first byte forces it there. -/
def Obligations.FrameIsEmittedOnceInAnyChunking : Prop :=
  ∀ (s : State) (f : Frame) (early late : List (Nat × ByteString)) (t : Nat) (garbage front : ByteString),
    s.stopped = false → s.cfg.outqDepth = none → FrameEmittable s.cfg f →
    (s.parser.st = .ws ∨ (early = [] ∧ gapElapsed s.cfg s.parser.tLast t = true)) →
    0x55 ∉ readBytesOf early ++ garbage → front ≠ [] → front ++ readBytesOf late = frameBytes f →
    gapFree s.cfg (some t) late = true →
      ∃ s', execAll (readInstrs (early ++ (t, garbage ++ front) :: late)) s = .next s' ∧
        s'.parser.outq = s.parser.outq ++ [f] ∧ s'.parser.st = .ws

/-- Derived (44_stream_parser.md section 7, chunking): two gap-free cuts of the same bytes leave the same registers but
`t_last` and emit the same Frames in the same order. -/
def Obligations.ChunkingDoesNotMatter : Prop :=
  ∀ (s s1 s2 : State) (reads1 reads2 : List (Nat × ByteString)),
    gapFree s.cfg s.parser.tLast reads1 = true → gapFree s.cfg s.parser.tLast reads2 = true →
    readBytesOf reads1 = readBytesOf reads2 →
    execAll (readInstrs reads1) s = .next s1 → execAll (readInstrs reads2) s = .next s2 →
      { s1.parser with tLast := none } = { s2.parser with tLast := none }

/-- Derived (44_stream_parser.md section 8): a frame with no data and no optional data, and a frame whose payload checksum
is 0x55, arriving in WaitSync in one gap-free read, emit nothing, although FRAME.PARSE accepts them. -/
def Obligations.TwoKindsOfFrameAreNeverEmitted : Prop :=
  ∀ (s : State) (t : Nat) (f : Frame), s.stopped = false → s.parser.st = .ws → FrameWithinLimits f →
    (f.data ++ f.optData = [] ∨ crcFold (f.data ++ f.optData) = 0x55) →
      ∃ s', exec (.spRead t (frameBytes f)) s = .next s' ∧ s'.parser.outq = s.parser.outq ∧
        (f.packetType ∈ s.cfg.ptTable.map Prod.fst →
          exec (.frameParse (frameBytes f)) s = .next { s with result := some (.ok (.frame f)) })

/-! ## U6, the ERP1 codec -/

/-- Derived (45_erp1_codec.md R261, and for the fourth check R262, which is decision D13): the three checks in order, the
RORG check only with `ERP1_STRICT_RORG`, then the record of the two layouts. -/
def Obligations.Erp1DecodeChecksThenSplits : Prop :=
  (∀ (f : Frame) (s : State),
    (f.packetType ≠ 0x01 → exec (.erp1Decode f) s = .next { s with result := some (.err .wrongPacketType) }) ∧
    (f.packetType = 0x01 → f.data.length < 6 →
      exec (.erp1Decode f) s = .next { s with result := some (.err .dataTooShort) }) ∧
    (f.packetType = 0x01 → 6 ≤ f.data.length → f.optData.length < 7 →
      exec (.erp1Decode f) s = .next { s with result := some (.err .optDataTooShort) })) ∧
  ∀ (rorg a0 a1 a2 a3 status sub d0 d1 d2 d3 rssi sec : Byte) (user more : ByteString) (s : State),
    let f : Frame := ⟨0x01, [rorg] ++ user ++ [a0, a1, a2, a3, status], [sub, d0, d1, d2, d3, rssi, sec] ++ more⟩
    (s.cfg.erp1StrictRorg = true → rorg ∉ s.cfg.rorgTable.map Prod.fst →
      exec (.erp1Decode f) s = .next { s with result := some (.err .unknownCode) }) ∧
    (s.cfg.erp1StrictRorg = false ∨ rorg ∈ s.cfg.rorgTable.map Prod.fst →
      exec (.erp1Decode f) s = .next { s with result := some (.ok (.packet
        { destinationId := BitVec.ofNat 32 (bigEndian [d0, d1, d2, d3])
          senderId := BitVec.ofNat 32 (bigEndian [a0, a1, a2, a3])
          rorg := rorg
          rssi := rssi
          securityLevel := sec
          status := status
          subTelNum := sub
          userData := user })) })

/-- R267: within the limit `ERP1.ENCODE` answers the frame of the two layouts, whose last two optional bytes are the
constants 0xFF and 0x03 whatever the packet says. -/
def Obligations.Erp1EncodeWritesItsLayout : Prop :=
  ∀ (p : Erp1Packet) (s : State), p.userData.length ≤ 65529 → ∃ sender dest : ByteString,
    exec (.didToBytes p.senderId) s = .next { s with result := some (.ok (.bytes sender)) } ∧
    exec (.didToBytes p.destinationId) s = .next { s with result := some (.ok (.bytes dest)) } ∧
    exec (.erp1Encode p) s = .next { s with result := some (.ok (.frame
      ⟨0x01, [p.rorg] ++ p.userData ++ sender ++ [p.status], [p.subTelNum] ++ dest ++ [0xFF, 0x03]⟩)) }

/-- R265: `ERP1.SERIALIZE` is `FRAME.SERIALIZE` of what `ERP1.ENCODE` answers, a fault propagates, and the bytes are
`len(user_data) + 20`. -/
def Obligations.Erp1SerializeIsSerializeOfEncode : Prop :=
  ∀ (p : Erp1Packet) (s : State),
    (∀ f : Frame, exec (.erp1Encode p) s = .next { s with result := some (.ok (.frame f)) } →
      ∃ w : ByteString, w.length = p.userData.length + 20 ∧
        exec (.frameSerialize f) s = .next { s with result := some (.ok (.bytes w)) } ∧
        exec (.erp1Serialize p) s = .next { s with result := some (.ok (.bytes w)) }) ∧
    (exec (.erp1Encode p) s = .next { s with result := some (.fault .lenLimit) } →
      exec (.erp1Serialize p) s = .next { s with result := some (.fault .lenLimit) }) ∧
    (p.userData.length ≤ 65529 → ∃ w : ByteString,
      exec (.erp1Serialize p) s = .next { s with result := some (.ok (.bytes w)) })

/-- Derived (45_erp1_codec.md, round trips and the intended asymmetry): decoding an encoded packet changes only `rssi`
and `security_level`; encoding a decoded frame gives it back exactly when its optional data is seven bytes ending in
`ff 03`. -/
def Obligations.Erp1RoundTripReplacesTwoBytes : Prop :=
  ∀ s : State,
    (∀ (p : Erp1Packet) (f : Frame),
      exec (.erp1Encode p) s = .next { s with result := some (.ok (.frame f)) } →
      (s.cfg.erp1StrictRorg = false ∨ p.rorg ∈ s.cfg.rorgTable.map Prod.fst) →
        exec (.erp1Decode f) s =
          .next { s with result := some (.ok (.packet { p with rssi := 0xFF, securityLevel := 0x03 })) }) ∧
    ∀ (p : Erp1Packet) (f g : Frame),
      exec (.erp1Decode f) s = .next { s with result := some (.ok (.packet p)) } →
      exec (.erp1Encode p) s = .next { s with result := some (.ok (.frame g)) } →
        g.packetType = f.packetType ∧ g.data = f.data ∧ g.optData = f.optData.take 5 ++ [0xFF, 0x03] ∧
        (g = f ↔ f.optData.length = 7 ∧ f.optData.drop 5 = [0xFF, 0x03])

/-! ## The machine -/

/-- R14: a one-shot operation answers an outcome that depends on its operands and the parameters alone, and writes
nothing but the outcome. -/
def Obligations.OneShotOperationsReadAndWriteNoState : Prop :=
  ∀ (i : Instr) (cfg : Config), oneShot i = true →
    ∃ r : Reply Value, ∀ s : State, s.cfg = cfg → exec i s = .next { s with result := some r }

/-- Derived (the selection is 30_encoding.md section 7, the parts of a read 44_stream_parser.md section 7; the model's
choices are the fetch from the input queue, log 1, the bound on operands, log 13, the parts of a read as steps of their
own, served before any input, log 15, and the consumer's take, log 7). Outside a read: a call whose select code and ports
decode is one execution of the decoded instruction, in the state whose oldest input is consumed, or is refused if an
operand string is over a finite IN_MAX; a code outside the list is refused; the consumer's take moves the oldest Frame,
and does nothing on an empty queue; a bytewise read begins with the gap rule, is nothing if it is empty and is refused
after a stop; with no input nothing happens. Inside a read: the next byte is one execution of the transition its key and
the registers select, and after the last byte the read ends with its time stamp in `t_last`. -/
def Obligations.StepRunsTheDecodedInstruction : Prop :=
  ∀ (s : State) (rest : List Input),
    (s.reading = none →
      (∀ (op : Byte) (ports : Operands) (i : Instr), s.inputs = .call op ports :: rest →
        decode (.op8 op ports) = .ok i → withinInMax s.cfg i = true → step s = exec i { s with inputs := rest }) ∧
      (∀ (op : Byte) (ports : Operands) (i : Instr), s.inputs = .call op ports :: rest →
        decode (.op8 op ports) = .ok i → withinInMax s.cfg i = false → step s = .refused .operandTooLong) ∧
      (∀ (op : Byte) (ports : Operands) (e : DecodeError), s.inputs = .call op ports :: rest →
        decode (.op8 op ports) = .error e → step s = .refused (.unselectable e)) ∧
      (∀ (f : Frame) (more : List Frame), s.inputs = .take :: rest → s.parser.outq = f :: more →
        step s = .next { s with inputs := rest, parser := { s.parser with outq := more }, taken := s.taken ++ [f] }) ∧
      (s.inputs = .take :: rest → s.parser.outq = [] → step s = .next { s with inputs := rest }) ∧
      (∀ (t : Nat) (b : Byte) (bytes : ByteString), s.inputs = .bytewiseRead t (b :: bytes) :: rest →
        s.stopped = false →
          step s = .next { s with
            inputs := rest
            parser := if gapElapsed s.cfg s.parser.tLast t then { s.parser with st := .ws } else s.parser
            reading := some ⟨t, b :: bytes⟩ }) ∧
      (∀ t : Nat, s.inputs = .bytewiseRead t [] :: rest → s.stopped = false →
        step s = .next { s with inputs := rest }) ∧
      (∀ (t : Nat) (bytes : ByteString), s.inputs = .bytewiseRead t bytes :: rest → s.stopped = true →
        step s = .refused .afterStop) ∧
      (s.inputs = [] → step s = .next s)) ∧
    (∀ (t : Nat) (b : Byte) (bytes : ByteString), s.reading = some ⟨t, b :: bytes⟩ →
      step s = exec ((s.parser.selected b).instr b) { s with reading := some ⟨t, bytes⟩ }) ∧
    (∀ t : Nat, s.reading = some ⟨t, []⟩ →
      step s = .next { s with parser := { s.parser with tLast := some t }, reading := none })

/-- Derived (30_encoding.md section 7; operand ports and condition bits are logs 2 and 3): the decoder gives back every
well-formed instruction from its selection, and only well-formed ones from any selection. -/
def Obligations.DecodeInvertsEncode : Prop :=
  (∀ i : Instr, i.wf = true → decode (encode i) = .ok i) ∧
    ∀ (sel : Selection) (i : Instr), decode sel = .ok i → i.wf = true ∧ decode (encode i) = .ok i

/-- Derived (30_encoding.md section 7, words of opcode_table.json; that a bare word of eight bits is a call with its
operand ports zero, and that condition bits left out are false, is log 4, the condition bits are log 3): words of every
unit and of every parser state and the instructions they stand for, and two that select nothing. -/
def Obligations.TableWordsDecode : Prop :=
  decodeTableWord 8 0x10 = some (.crcStep 0 0) ∧
  decodeTableWord 8 0x24 = some .didBroadcast ∧
  decodeTableWord 8 0x33 = some (.rorgFormat 0) ∧
  decodeTableWord 8 0x41 = some (.frameParse []) ∧
  decodeTableWord 8 0x50 = some (.spRead 0 []) ∧
  decodeTableWord 8 0x61 = some (.erp1Encode ⟨0, 0, 0, 0, 0, 0, 0, []⟩) ∧
  decodeTableWord 16 0x055 = some .spWsSync ∧
  decodeTableWord 16 0x1AA = some (.spWhAcc 0xAA) ∧
  decodeTableWord 16 0xA70 = some (.spWhcOk 0x70) ∧
  decodeTableWord 16 0x2200 = some (.spWhcResyncBuf 0x00) ∧
  decodeTableWord 16 0x3AA = some (.spWdAcc 0xAA) ∧
  decodeTableWord 16 0xCB2 = some (.spWdcOk 0xB2) ∧
  decodeTableWord 8 0x12 = none ∧
  decodeTableWord 16 0x500 = none

/-- Derived (44_stream_parser.md section 7, `SP.READ` as a gap test, one transition for each byte in order and the write
of `t_last`; that the parts are steps of their own is the model's choice, log 15, and so is the point of the refusal at a
full queue, log 12): a read taken byte by byte, run to its end, answers what the instruction SP.READ answers, a next
state or a refusal. An empty one takes one step, one of `n` bytes `n + 2`. -/
def Obligations.BytewiseReadIsTheWholeRead : Prop :=
  ∀ (s : State) (t : Nat) (bytes : ByteString) (rest : List Input),
    s.reading = none → s.inputs = .bytewiseRead t bytes :: rest →
      runSteps (if bytes = [] then 1 else bytes.length + 2) s = exec (.spRead t bytes) { s with inputs := rest }
end

