-- ==== Sys2Proof/Laws/State.lean ====
section
/-! SUPPORT. The fields of the state after each named update: one lemma for each field and update. -/

namespace Sys2Proof.Machine

@[simp] theorem State.putResult_cfg (x : State) (r : Reply Value) : (x.putResult r).cfg = x.cfg := rfl
@[simp] theorem State.putResult_parser (x : State) (r : Reply Value) : (x.putResult r).parser = x.parser := rfl
@[simp] theorem State.putResult_stopped (x : State) (r : Reply Value) : (x.putResult r).stopped = x.stopped := rfl
@[simp] theorem State.putResult_reading (x : State) (r : Reply Value) : (x.putResult r).reading = x.reading := rfl
@[simp] theorem State.putResult_result (x : State) (r : Reply Value) : (x.putResult r).result = some r := rfl
@[simp] theorem State.putResult_reports (x : State) (r : Reply Value) : (x.putResult r).reports = x.reports := rfl
@[simp] theorem State.putResult_taken (x : State) (r : Reply Value) : (x.putResult r).taken = x.taken := rfl
@[simp] theorem State.putResult_inputs (x : State) (r : Reply Value) : (x.putResult r).inputs = x.inputs := rfl

@[simp] theorem State.putParser_cfg (x : State) (p : Parser) : (x.putParser p).cfg = x.cfg := rfl
@[simp] theorem State.putParser_parser (x : State) (p : Parser) : (x.putParser p).parser = p := rfl
@[simp] theorem State.putParser_stopped (x : State) (p : Parser) : (x.putParser p).stopped = x.stopped := rfl
@[simp] theorem State.putParser_reading (x : State) (p : Parser) : (x.putParser p).reading = x.reading := rfl
@[simp] theorem State.putParser_result (x : State) (p : Parser) : (x.putParser p).result = x.result := rfl
@[simp] theorem State.putParser_reports (x : State) (p : Parser) : (x.putParser p).reports = x.reports := rfl
@[simp] theorem State.putParser_taken (x : State) (p : Parser) : (x.putParser p).taken = x.taken := rfl
@[simp] theorem State.putParser_inputs (x : State) (p : Parser) : (x.putParser p).inputs = x.inputs := rfl

@[simp] theorem State.addReport_cfg (x : State) (info : Text) : (x.addReport info).cfg = x.cfg := rfl
@[simp] theorem State.addReport_parser (x : State) (info : Text) : (x.addReport info).parser = x.parser := rfl
@[simp] theorem State.addReport_stopped (x : State) (info : Text) : (x.addReport info).stopped = x.stopped := rfl
@[simp] theorem State.addReport_reading (x : State) (info : Text) : (x.addReport info).reading = x.reading := rfl
@[simp] theorem State.addReport_result (x : State) (info : Text) : (x.addReport info).result = x.result := rfl
@[simp] theorem State.addReport_reports (x : State) (info : Text) : (x.addReport info).reports = x.reports ++ [info] := rfl
@[simp] theorem State.addReport_taken (x : State) (info : Text) : (x.addReport info).taken = x.taken := rfl
@[simp] theorem State.addReport_inputs (x : State) (info : Text) : (x.addReport info).inputs = x.inputs := rfl

@[simp] theorem State.putStopped_cfg (x : State) (b : Bool) : (x.putStopped b).cfg = x.cfg := rfl
@[simp] theorem State.putStopped_parser (x : State) (b : Bool) : (x.putStopped b).parser = x.parser := rfl
@[simp] theorem State.putStopped_stopped (x : State) (b : Bool) : (x.putStopped b).stopped = b := rfl
@[simp] theorem State.putStopped_reading (x : State) (b : Bool) : (x.putStopped b).reading = x.reading := rfl
@[simp] theorem State.putStopped_result (x : State) (b : Bool) : (x.putStopped b).result = x.result := rfl
@[simp] theorem State.putStopped_reports (x : State) (b : Bool) : (x.putStopped b).reports = x.reports := rfl
@[simp] theorem State.putStopped_taken (x : State) (b : Bool) : (x.putStopped b).taken = x.taken := rfl
@[simp] theorem State.putStopped_inputs (x : State) (b : Bool) : (x.putStopped b).inputs = x.inputs := rfl

@[simp] theorem State.putReading_cfg (x : State) (r : Option Reading) : (x.putReading r).cfg = x.cfg := rfl
@[simp] theorem State.putReading_parser (x : State) (r : Option Reading) : (x.putReading r).parser = x.parser := rfl
@[simp] theorem State.putReading_stopped (x : State) (r : Option Reading) : (x.putReading r).stopped = x.stopped := rfl
@[simp] theorem State.putReading_reading (x : State) (r : Option Reading) : (x.putReading r).reading = r := rfl
@[simp] theorem State.putReading_result (x : State) (r : Option Reading) : (x.putReading r).result = x.result := rfl
@[simp] theorem State.putReading_reports (x : State) (r : Option Reading) : (x.putReading r).reports = x.reports := rfl
@[simp] theorem State.putReading_taken (x : State) (r : Option Reading) : (x.putReading r).taken = x.taken := rfl
@[simp] theorem State.putReading_inputs (x : State) (r : Option Reading) : (x.putReading r).inputs = x.inputs := rfl

@[simp] theorem Parser.stamp_st (x : Parser) (t : Nat) : (x.stamp t).st = x.st := rfl
@[simp] theorem Parser.stamp_crc (x : Parser) (t : Nat) : (x.stamp t).crc = x.crc := rfl
@[simp] theorem Parser.stamp_hbuf (x : Parser) (t : Nat) : (x.stamp t).hbuf = x.hbuf := rfl
@[simp] theorem Parser.stamp_dlen (x : Parser) (t : Nat) : (x.stamp t).dlen = x.dlen := rfl
@[simp] theorem Parser.stamp_olen (x : Parser) (t : Nat) : (x.stamp t).olen = x.olen := rfl
@[simp] theorem Parser.stamp_ptc (x : Parser) (t : Nat) : (x.stamp t).ptc = x.ptc := rfl
@[simp] theorem Parser.stamp_pbuf (x : Parser) (t : Nat) : (x.stamp t).pbuf = x.pbuf := rfl
@[simp] theorem Parser.stamp_tLast (x : Parser) (t : Nat) : (x.stamp t).tLast = some t := rfl
@[simp] theorem Parser.stamp_outq (x : Parser) (t : Nat) : (x.stamp t).outq = x.outq := rfl

@[simp] theorem Parser.emit_st (x : Parser) (f : Frame) : (x.emit f).st = x.st := rfl
@[simp] theorem Parser.emit_crc (x : Parser) (f : Frame) : (x.emit f).crc = x.crc := rfl
@[simp] theorem Parser.emit_hbuf (x : Parser) (f : Frame) : (x.emit f).hbuf = x.hbuf := rfl
@[simp] theorem Parser.emit_dlen (x : Parser) (f : Frame) : (x.emit f).dlen = x.dlen := rfl
@[simp] theorem Parser.emit_olen (x : Parser) (f : Frame) : (x.emit f).olen = x.olen := rfl
@[simp] theorem Parser.emit_ptc (x : Parser) (f : Frame) : (x.emit f).ptc = x.ptc := rfl
@[simp] theorem Parser.emit_pbuf (x : Parser) (f : Frame) : (x.emit f).pbuf = x.pbuf := rfl
@[simp] theorem Parser.emit_tLast (x : Parser) (f : Frame) : (x.emit f).tLast = x.tLast := rfl
@[simp] theorem Parser.emit_outq (x : Parser) (f : Frame) : (x.emit f).outq = x.outq ++ [f] := rfl

@[simp] theorem Parser.toWaitSync_st (x : Parser) : (x.toWaitSync).st = .ws := rfl
@[simp] theorem Parser.toWaitSync_crc (x : Parser) : (x.toWaitSync).crc = x.crc := rfl
@[simp] theorem Parser.toWaitSync_hbuf (x : Parser) : (x.toWaitSync).hbuf = x.hbuf := rfl
@[simp] theorem Parser.toWaitSync_dlen (x : Parser) : (x.toWaitSync).dlen = x.dlen := rfl
@[simp] theorem Parser.toWaitSync_olen (x : Parser) : (x.toWaitSync).olen = x.olen := rfl
@[simp] theorem Parser.toWaitSync_ptc (x : Parser) : (x.toWaitSync).ptc = x.ptc := rfl
@[simp] theorem Parser.toWaitSync_pbuf (x : Parser) : (x.toWaitSync).pbuf = x.pbuf := rfl
@[simp] theorem Parser.toWaitSync_tLast (x : Parser) : (x.toWaitSync).tLast = x.tLast := rfl
@[simp] theorem Parser.toWaitSync_outq (x : Parser) : (x.toWaitSync).outq = x.outq := rfl

@[simp] theorem Parser.restart_st (x : Parser) : (x.restart).st = .wh := rfl
@[simp] theorem Parser.restart_crc (x : Parser) : (x.restart).crc = 0 := rfl
@[simp] theorem Parser.restart_hbuf (x : Parser) : (x.restart).hbuf = [] := rfl
@[simp] theorem Parser.restart_dlen (x : Parser) : (x.restart).dlen = x.dlen := rfl
@[simp] theorem Parser.restart_olen (x : Parser) : (x.restart).olen = x.olen := rfl
@[simp] theorem Parser.restart_ptc (x : Parser) : (x.restart).ptc = x.ptc := rfl
@[simp] theorem Parser.restart_pbuf (x : Parser) : (x.restart).pbuf = x.pbuf := rfl
@[simp] theorem Parser.restart_tLast (x : Parser) : (x.restart).tLast = x.tLast := rfl
@[simp] theorem Parser.restart_outq (x : Parser) : (x.restart).outq = x.outq := rfl

@[simp] theorem consumerTake_cfg (s : State) : (consumerTake s).cfg = s.cfg := by unfold consumerTake; split <;> rfl
@[simp] theorem consumerTake_stopped (s : State) : (consumerTake s).stopped = s.stopped := by
  unfold consumerTake; split <;> rfl
@[simp] theorem consumerTake_reading (s : State) : (consumerTake s).reading = s.reading := by
  unfold consumerTake; split <;> rfl
@[simp] theorem consumerTake_result (s : State) : (consumerTake s).result = s.result := by
  unfold consumerTake; split <;> rfl
@[simp] theorem consumerTake_reports (s : State) : (consumerTake s).reports = s.reports := by
  unfold consumerTake; split <;> rfl
@[simp] theorem consumerTake_inputs (s : State) : (consumerTake s).inputs = s.inputs := by
  unfold consumerTake; split <;> rfl

/-- A take moves Frames from the queue to the consumer and loses none (R32). -/
theorem consumerTake_frames (s : State) :
    (consumerTake s).taken ++ (consumerTake s).parser.outq = s.taken ++ s.parser.outq := by
  unfold consumerTake; split <;> simp_all

end Sys2Proof.Machine
end

