-- ==== Sys2Proof/Laws/Ops.lean ====
section
/-! SUPPORT. One lemma for each shared operation: what it can do. Callers cite these and do not unfold the operations. -/

namespace Sys2Proof.Machine

/-! ## Bytes, slices and big-endian fields -/

theorem slice_length (s : ByteString) (a b : Nat) (hb : b ≤ s.length) : (slice s a b).length = b - a := by
  simp [slice]; omega

theorem slice_zero (s : ByteString) (b : Nat) : slice s 0 b = s.take b := by simp [slice]

/-- A slice of a concatenation that is exactly its middle part. -/
theorem slice_append (pre mid post : ByteString) (a b : Nat) (ha : a = pre.length)
    (hb : b = pre.length + mid.length) : slice (pre ++ mid ++ post) a b = mid := by
  subst ha hb; simp [slice, List.append_assoc]

theorem byteAt_append_right (pre post : ByteString) (i : Nat) (hi : pre.length ≤ i) :
    byteAt (pre ++ post) i = byteAt post (i - pre.length) := by
  simp [byteAt, List.getElem?_append_right hi]

theorem byteAt_append_left (pre post : ByteString) (i : Nat) (hi : i < pre.length) :
    byteAt (pre ++ post) i = byteAt pre i := by
  simp [byteAt, List.getElem?_append_left hi]

theorem append_byte_toNat {n : Nat} (x : BitVec n) (l : Byte) : (x ++ l).toNat = x.toNat * 256 + l.toNat := by
  rw [BitVec.toNat_append, Nat.shiftLeft_eq, Nat.mul_comm, ← Nat.two_pow_add_eq_or_of_lt l.isLt]

theorem be16_toNat (h l : Byte) : (be16 h l).toNat = h.toNat * 256 + l.toNat := append_byte_toNat h l

theorem be32_toNat (b0 b1 b2 b3 : Byte) :
    (be32 b0 b1 b2 b3).toNat = b0.toNat * 16777216 + b1.toNat * 65536 + b2.toNat * 256 + b3.toNat := by
  simp only [be32, append_byte_toNat]
  omega

/-! ## The checksum -/

theorem crcFoldFrom_append (c0 : Byte) (a b : ByteString) :
    crcFoldFrom c0 (a ++ b) = crcFoldFrom (crcFoldFrom c0 a) b := by simp [crcFoldFrom]

@[simp] theorem crcFold_nil : crcFold [] = 0 := rfl

/-- R126 for one more byte: what lets the parser keep one register. -/
theorem crcFold_concat (a : ByteString) (b : Byte) : crcFold (a ++ [b]) = crcStep b (crcFold a) := by
  simp [crcFold, crcFoldFrom]

/-! ## The code tables -/

/-- A code is known exactly when it stands in the table (R24). -/
theorem codeName_isSome (table : List (Byte × Text)) (c : Byte) :
    (codeName table c).isSome = true ↔ c ∈ table.map Prod.fst := by
  have key : (codeName table c).isSome = (table.find? fun e => e.1 == c).isSome := by
    unfold codeName; cases table.find? fun e => e.1 == c <;> rfl
  rw [key]
  simp [List.find?_isSome]

theorem ptKnown_iff (cfg : Config) (c : Byte) : ptKnown cfg c = true ↔ c ∈ cfg.ptTable.map Prod.fst :=
  codeName_isSome _ _

theorem rorgKnown_iff (cfg : Config) (c : Byte) : rorgKnown cfg c = true ↔ c ∈ cfg.rorgTable.map Prod.fst :=
  codeName_isSome _ _

/-! ## Frames -/

theorem fitsLimits_iff (data optData : ByteString) :
    fitsLimits data optData = true ↔ data.length ≤ dataLenMax ∧ optData.length ≤ optLenMax := by
  unfold fitsLimits; rw [Bool.and_eq_true, decide_eq_true_eq, decide_eq_true_eq]

/-- A serialized frame in three parts: the sync byte, the checked header, the checked payload. -/
theorem frameBytes_parts (f : Frame) :
    frameBytes f = [sync] ++ (headerBytes f ++ [crcFold (headerBytes f)]) ++
      (f.data ++ f.optData ++ [crcFold (f.data ++ f.optData)]) := by simp [frameBytes]

theorem frameBytes_length (f : Frame) : (frameBytes f).length = 7 + f.data.length + f.optData.length := by
  rw [frameBytes_parts]; simp [headerBytes]; omega

/-- What FRAME.PARSE does with six header bytes, a payload and a last byte (R184, R185). -/
theorem frameParse_parts (cfg : Config) (b0 b1 b2 b3 b4 b5 c : Byte) (payload : ByteString) :
    frameParse cfg ([b0, b1, b2, b3, b4, b5] ++ payload ++ [c]) =
      if b0 ≠ sync then .err .missingSync
      else if crcFold [b1, b2, b3, b4] ≠ b5 then .err .headerChecksumMismatch
      else if ptKnown cfg b4 = false then .err .unknownCode
      else if crcFold payload ≠ c then .err .payloadChecksumMismatch
      else if b1.toNat * 256 + b2.toNat > payload.length then .fault .sliceRange
      else .ok ⟨b4, payload.take (b1.toNat * 256 + b2.toNat), payload.drop (b1.toNat * 256 + b2.toNat)⟩ := by
  have total : ([b0, b1, b2, b3, b4, b5] ++ payload ++ [c]).length = payload.length + 7 := by simp
  have last : byteAt ([b0, b1, b2, b3, b4, b5] ++ payload ++ [c]) (6 + payload.length) = c := by
    rw [byteAt_append_right _ _ _ (by simp; omega),
      show 6 + payload.length - ([b0, b1, b2, b3, b4, b5] ++ payload).length = 0 by simp; omega]
    rfl
  have whole : slice ([b0, b1, b2, b3, b4, b5] ++ payload ++ [c]) 6 (6 + payload.length) = payload :=
    slice_append _ _ _ _ _ rfl (by simp)
  have front : ∀ n, n ≤ payload.length →
      slice ([b0, b1, b2, b3, b4, b5] ++ payload ++ [c]) 6 (6 + n) = payload.take n := by
    intro n hn; simp [slice, List.take_append_of_le_length hn]
  have back : ∀ n, n ≤ payload.length →
      slice ([b0, b1, b2, b3, b4, b5] ++ payload ++ [c]) (6 + n) (6 + payload.length) = payload.drop n := by
    intro n hn
    have cut : [b0, b1, b2, b3, b4, b5] ++ payload ++ [c] =
        ([b0, b1, b2, b3, b4, b5] ++ payload.take n) ++ payload.drop n ++ [c] := by simp
    rw [cut]; exact slice_append _ _ _ _ _ (by simp; omega) (by simp; omega)
  have body : frameParse cfg ([b0, b1, b2, b3, b4, b5] ++ payload ++ [c]) =
      if b0 ≠ sync then .err .missingSync
      else if crcFold [b1, b2, b3, b4] ≠ b5 then .err .headerChecksumMismatch
      else if ptKnown cfg b4 = false then .err .unknownCode
      else if crcFold payload ≠ c then .err .payloadChecksumMismatch
      else if 6 + (b1.toNat * 256 + b2.toNat) > 6 + payload.length then .fault .sliceRange
      else .ok ⟨b4, slice ([b0, b1, b2, b3, b4, b5] ++ payload ++ [c]) 6 (6 + (b1.toNat * 256 + b2.toNat)),
        slice ([b0, b1, b2, b3, b4, b5] ++ payload ++ [c]) (6 + (b1.toNat * 256 + b2.toNat)) (6 + payload.length)⟩ := by
    unfold frameParse
    rw [show ([b0, b1, b2, b3, b4, b5] ++ payload ++ [c]).length - 1 = 6 + payload.length by rw [total]; omega]
    simp only [whole, last]
    rw [if_neg (by rw [total]; simp [frameMin])]
    rw [show (be16 (byteAt ([b0, b1, b2, b3, b4, b5] ++ payload ++ [c]) 1)
      (byteAt ([b0, b1, b2, b3, b4, b5] ++ payload ++ [c]) 2)).toNat = b1.toNat * 256 + b2.toNat from be16_toNat b1 b2]
    rfl
  rw [body]
  by_cases hd : b1.toNat * 256 + b2.toNat > payload.length
  · have hd' : 6 + (b1.toNat * 256 + b2.toNat) > 6 + payload.length := by omega
    simp only [hd, hd', if_true]
  · have hd' : ¬ 6 + (b1.toNat * 256 + b2.toNat) > 6 + payload.length := by omega
    simp only [hd, hd', if_false, front _ (by omega : b1.toNat * 256 + b2.toNat ≤ payload.length),
      back _ (by omega : b1.toNat * 256 + b2.toNat ≤ payload.length)]

/-! ## The gap test -/

/-- R233, R235: there is an earlier read and it lies 100 ms or more back. -/
theorem gapElapsed_iff (cfg : Config) (tLast : Option Nat) (t : Nat) :
    gapElapsed cfg tLast t = true ↔ ∃ t0, tLast = some t0 ∧ gapNs ≤ (t - t0) * cfg.timeUnitNs := by
  cases tLast with
  | none => simp [gapElapsed]
  | some t0 => show decide _ = true ↔ _; rw [decide_eq_true_eq]; simp

/-! ## Outcomes and the end of an event -/

theorem answer_eq (s : State) (r : Reply Value) : answer s r = .next (s.putResult r) := rfl

/-- The one way a commit answers a next state. -/
theorem commit_next {s s' : State} {p : Parser} :
    commit s p = .next s' ↔ s.stopped = false ∧ overfull s.cfg s.parser p = false ∧ s' = s.putParser p := by
  unfold commit
  by_cases hs : s.stopped = true
  · simp [hs]
  · by_cases ho : overfull s.cfg s.parser p = true
    · simp [hs, ho]
    · simp [hs, ho, eq_comm]

theorem commit_eq {s : State} {p : Parser} (hs : s.stopped = false) (hr : overfull s.cfg s.parser p = false) :
    commit s p = .next (s.putParser p) := commit_next.mpr ⟨hs, hr, rfl⟩

/-- What appends nothing to the queue leaves room. -/
theorem overfull_of_same {cfg : Config} {p q : Parser} (h : q.outq = p.outq) : overfull cfg p q = false := by
  unfold overfull; split <;> simp [h]

theorem overfull_eq_false {cfg : Config} {p q : Parser} :
    overfull cfg p q = false ↔
      ∀ d, cfg.outqDepth = some d → p.outq.length < q.outq.length → q.outq.length ≤ d := by
  unfold overfull
  cases h : cfg.outqDepth with
  | none => simp
  | some d => simp

end Sys2Proof.Machine
end

