-- ==== Sys2Proof/Laws/PerInstr.lean ====
section
/-! SUPPORT. A statement about every instruction as syntax: the selection the encoder writes for it has the format, and
under the row's mask the value, of its row of spec/opcode_table.json (30_encoding.md R98, R99). -/

namespace Sys2Proof.Laws.TableRow

/-- A row of the opcode table: its format (OP8 or SPKEY11), its match and its mask. -/
structure Row where
  isOp8 : Bool
  pattern : Nat
  mask : Nat

/-- The row of an instruction, copied from spec/opcode_table.json. -/
def row : Instr → Row
  | .crcStep _ _ => ⟨true, 0x10, 0xFF⟩  -- CRC.STEP
  | .crcFold _ => ⟨true, 0x11, 0xFF⟩  -- CRC.FOLD
  | .didToBytes _ => ⟨true, 0x20, 0xFF⟩  -- DID.TO_BYTES
  | .didToString _ => ⟨true, 0x21, 0xFF⟩  -- DID.TO_STRING
  | .didFromHex _ => ⟨true, 0x22, 0xFF⟩  -- DID.FROM_HEX
  | .didFromBytes _ => ⟨true, 0x23, 0xFF⟩  -- DID.FROM_BYTES
  | .didBroadcast => ⟨true, 0x24, 0xFF⟩  -- DID.BROADCAST
  | .didFromU32 _ => ⟨true, 0x25, 0xFF⟩  -- DID.FROM_U32
  | .ptParseByte _ => ⟨true, 0x30, 0xFF⟩  -- PT.PARSE_BYTE
  | .ptFormat _ => ⟨true, 0x31, 0xFF⟩  -- PT.FORMAT
  | .rorgParseByte _ => ⟨true, 0x32, 0xFF⟩  -- RORG.PARSE_BYTE
  | .rorgFormat _ => ⟨true, 0x33, 0xFF⟩  -- RORG.FORMAT
  | .frameSerialize _ => ⟨true, 0x40, 0xFF⟩  -- FRAME.SERIALIZE
  | .frameParse _ => ⟨true, 0x41, 0xFF⟩  -- FRAME.PARSE
  | .frameFromParts _ _ _ => ⟨true, 0x42, 0xFF⟩  -- FRAME.FROM_PARTS
  | .frameParseHex _ => ⟨true, 0x43, 0xFF⟩  -- FRAME.PARSE_HEX
  | .frameSerializeHex _ => ⟨true, 0x44, 0xFF⟩  -- FRAME.SERIALIZE_HEX
  | .spRead _ _ => ⟨true, 0x50, 0xFF⟩  -- SP.READ
  | .spReadErr _ _ => ⟨true, 0x51, 0xFF⟩  -- SP.READ_ERR
  | .spStop => ⟨true, 0x52, 0xFF⟩  -- SP.STOP
  | .spReset => ⟨true, 0x53, 0xFF⟩  -- SP.RESET
  | .erp1Decode _ => ⟨true, 0x60, 0xFF⟩  -- ERP1.DECODE
  | .erp1Encode _ => ⟨true, 0x61, 0xFF⟩  -- ERP1.ENCODE
  | .erp1Serialize _ => ⟨true, 0x62, 0xFF⟩  -- ERP1.SERIALIZE
  | .spWsSync => ⟨false, 0x055, 0x7FF⟩  -- SP.WS.SYNC
  | .spWsSkip _ => ⟨false, 0x000, 0x700⟩  -- SP.WS.SKIP
  | .spWhAcc _ => ⟨false, 0x100, 0x700⟩  -- SP.WH.ACC
  | .spWhcOk _ => ⟨false, 0x200, 0x700⟩  -- SP.WHC.OK
  | .spWhcZeroSync => ⟨false, 0x255, 0x7FF⟩  -- SP.WHC.ZERO_SYNC
  | .spWhcZero _ => ⟨false, 0x200, 0x700⟩  -- SP.WHC.ZERO
  | .spWhcResyncNone _ => ⟨false, 0x200, 0x700⟩  -- SP.WHC.RESYNC_NONE
  | .spWhcResyncCur => ⟨false, 0x255, 0x7FF⟩  -- SP.WHC.RESYNC_CUR
  | .spWhcResyncBuf _ => ⟨false, 0x200, 0x700⟩  -- SP.WHC.RESYNC_BUF
  | .spWdAcc _ => ⟨false, 0x300, 0x700⟩  -- SP.WD.ACC
  | .spWdcSync => ⟨false, 0x455, 0x7FF⟩  -- SP.WDC.SYNC
  | .spWdcOk _ => ⟨false, 0x400, 0x700⟩  -- SP.WDC.OK
  | .spWdcBad _ => ⟨false, 0x400, 0x700⟩  -- SP.WDC.BAD

/-- The format and the number of a selection; a key is the low eleven bits of a selection word. -/
def bits : Selection → Bool × Nat
  | .op8 op _ => (true, op.toNat)
  | .spKey word => (false, word.toNat)

/-- The encoder writes what the row says. -/
abbrev Statement (i : Instr) : Prop :=
  i.wf = true → (bits (encode i)).1 = (row i).isOp8 ∧ (bits (encode i)).2 &&& (row i).mask = (row i).pattern

theorem crcStep (byte crc : Byte) : Statement (.crcStep byte crc) := fun _ => ⟨rfl, by simp [bits, encode, row]⟩
theorem crcFold (bytes : ByteString) : Statement (.crcFold bytes) := fun _ => ⟨rfl, by simp [bits, encode, row]⟩
theorem didToBytes (id : Word) : Statement (.didToBytes id) := fun _ => ⟨rfl, by simp [bits, encode, row]⟩
theorem didToString (id : Word) : Statement (.didToString id) := fun _ => ⟨rfl, by simp [bits, encode, row]⟩
theorem didFromHex (str : Text) : Statement (.didFromHex str) := fun _ => ⟨rfl, by simp [bits, encode, row]⟩
theorem didFromBytes (bytes : ByteString) : Statement (.didFromBytes bytes) := fun _ => ⟨rfl, by simp [bits, encode, row]⟩
theorem didBroadcast : Statement .didBroadcast := fun _ => by decide
theorem didFromU32 (n : Word) : Statement (.didFromU32 n) := fun _ => ⟨rfl, by simp [bits, encode, row]⟩
theorem ptParseByte (b : Byte) : Statement (.ptParseByte b) := fun _ => ⟨rfl, by simp [bits, encode, row]⟩
theorem ptFormat (v : Byte) : Statement (.ptFormat v) := fun _ => ⟨rfl, by simp [bits, encode, row]⟩
theorem rorgParseByte (b : Byte) : Statement (.rorgParseByte b) := fun _ => ⟨rfl, by simp [bits, encode, row]⟩
theorem rorgFormat (v : Byte) : Statement (.rorgFormat v) := fun _ => ⟨rfl, by simp [bits, encode, row]⟩
theorem frameSerialize (f : Frame) : Statement (.frameSerialize f) := fun _ => ⟨rfl, by simp [bits, encode, row]⟩
theorem frameParse (bytes : ByteString) : Statement (.frameParse bytes) := fun _ => ⟨rfl, by simp [bits, encode, row]⟩
theorem frameFromParts (pt : Byte) (data optData : ByteString) : Statement (.frameFromParts pt data optData) := fun _ => ⟨rfl, by simp [bits, encode, row]⟩
theorem frameParseHex (str : Text) : Statement (.frameParseHex str) := fun _ => ⟨rfl, by simp [bits, encode, row]⟩
theorem frameSerializeHex (f : Frame) : Statement (.frameSerializeHex f) := fun _ => ⟨rfl, by simp [bits, encode, row]⟩
theorem spRead (t : Nat) (bytes : ByteString) : Statement (.spRead t bytes) := fun _ => ⟨rfl, by simp [bits, encode, row]⟩
theorem spReadErr (t : Nat) (info : Text) : Statement (.spReadErr t info) := fun _ => ⟨rfl, by simp [bits, encode, row]⟩
theorem spStop : Statement .spStop := fun _ => by decide
theorem spReset : Statement .spReset := fun _ => by decide
theorem erp1Decode (f : Frame) : Statement (.erp1Decode f) := fun _ => ⟨rfl, by simp [bits, encode, row]⟩
theorem erp1Encode (p : Erp1Packet) : Statement (.erp1Encode p) := fun _ => ⟨rfl, by simp [bits, encode, row]⟩
theorem erp1Serialize (p : Erp1Packet) : Statement (.erp1Serialize p) := fun _ => ⟨rfl, by simp [bits, encode, row]⟩
theorem spWsSync : Statement .spWsSync := by decide
theorem spWsSkip (b : Byte) : Statement (.spWsSkip b) := by revert b; decide
theorem spWhAcc (b : Byte) : Statement (.spWhAcc b) := by revert b; decide
theorem spWhcOk (b : Byte) : Statement (.spWhcOk b) := by revert b; decide
theorem spWhcZeroSync : Statement .spWhcZeroSync := by decide
theorem spWhcZero (b : Byte) : Statement (.spWhcZero b) := by revert b; decide
theorem spWhcResyncNone (b : Byte) : Statement (.spWhcResyncNone b) := by revert b; decide
theorem spWhcResyncCur : Statement .spWhcResyncCur := by decide
theorem spWhcResyncBuf (b : Byte) : Statement (.spWhcResyncBuf b) := by revert b; decide
theorem spWdAcc (b : Byte) : Statement (.spWdAcc b) := by revert b; decide
theorem spWdcSync : Statement .spWdcSync := by decide
theorem spWdcOk (b : Byte) : Statement (.spWdcOk b) := by revert b; decide
theorem spWdcBad (b : Byte) : Statement (.spWdcBad b) := by revert b; decide

end Sys2Proof.Laws.TableRow
end

