-- ==== Sys2Proof/Laws/StreamParser.lean ====
section
/-! SUPPORT. What a transition, a byte, a read and a sequence of bytes can do to the registers. -/

namespace Sys2Proof.Machine

/-! ## The header fields of four buffered bytes -/

theorem headerDataLen_of (p : Parser) {h0 h1 h2 h3 : Byte} (h : p.hbuf = [h0, h1, h2, h3]) :
    p.headerDataLen = be16 h0 h1 := by simp [Parser.headerDataLen, h, byteAt]

theorem headerOptLen_of (p : Parser) {h0 h1 h2 h3 : Byte} (h : p.hbuf = [h0, h1, h2, h3]) :
    p.headerOptLen = h2 := by simp [Parser.headerOptLen, h, byteAt]

theorem headerPacketType_of (p : Parser) {h0 h1 h2 h3 : Byte} (h : p.hbuf = [h0, h1, h2, h3]) :
    p.headerPacketType = h3 := by simp [Parser.headerPacketType, h, byteAt]

/-! ## The kept header bytes of a resynchronization -/

/-- R222's table: with the first 0x55 at index `i` the kept bytes are `4 - i`. -/
theorem keptHeader_length {hbuf : ByteString} (b : Byte) (hl : hbuf.length = 4) (hs : sync ∈ hbuf) :
    (keptHeader hbuf b).length = 4 - hbuf.idxOf sync ∧ hbuf.idxOf sync ≤ 3 := by
  have := List.idxOf_lt_length_iff.mpr hs
  simp [keptHeader, slice, hl]; omega

/-- The kept bytes are those after the first 0x55, and the byte. -/
theorem keptHeader_eq (b : Byte) (before after : ByteString) (hs : sync ∉ before)
    (hl : (before ++ sync :: after).length = 4) : keptHeader (before ++ sync :: after) b = after ++ [b] := by
  have first : (before ++ sync :: after).idxOf sync = before.length := by
    rw [List.idxOf_append_of_notMem hs]; simp
  unfold keptHeader
  rw [first]
  simp at hl
  rw [show before ++ sync :: after = (before ++ [sync]) ++ after ++ [] by simp,
    slice_append _ _ _ _ _ (by simp) (by simp; omega)]

/-- A full payload buffer splits into the Frame's two strings (R229). -/
theorem payloadFrame_eq (p : Parser) (h : p.pbuf.length = p.payloadTotal) :
    p.payloadFrame = ⟨p.ptc, p.pbuf.take p.dlen.toNat, p.pbuf.drop p.dlen.toNat⟩ := by
  unfold Parser.payloadFrame
  rw [slice_zero]
  congr 1
  have cut : p.pbuf = p.pbuf.take p.dlen.toNat ++ p.pbuf.drop p.dlen.toNat ++ [] := by simp
  conv_lhs => rw [cut]
  unfold Parser.payloadTotal at *
  exact slice_append _ _ _ _ _ (by simp; omega) (by simp; omega)

/-! ## Transitions -/

theorem runTransition_next {tr : Transition} {b : Byte} {s s' : State} :
    runTransition tr b s = .next s' ↔
      s.stopped = false ∧ s.parser.selected b = tr ∧
        overfull s.cfg s.parser (transitionEffect s.cfg tr b s.parser) = false ∧
        s' = s.putParser (transitionEffect s.cfg tr b s.parser) := by
  unfold runTransition
  split
  · simp_all
  · split
    · simp_all [commit_next]
    · simp_all

theorem runTransition_eq {tr : Transition} {b : Byte} {s : State} (hs : s.stopped = false)
    (ht : s.parser.selected b = tr) (hr : overfull s.cfg s.parser (transitionEffect s.cfg tr b s.parser) = false) :
    runTransition tr b s = .next (s.putParser (transitionEffect s.cfg tr b s.parser)) :=
  runTransition_next.mpr ⟨hs, ht, hr, rfl⟩

/-- No transition but SP.WDC.OK writes the queue. -/
theorem transitionEffect_outq (cfg : Config) (tr : Transition) (b : Byte) (p : Parser) (h : tr ≠ .wdcOk) :
    (transitionEffect cfg tr b p).outq = p.outq := by
  cases tr <;> first | rfl | exact absurd rfl h

theorem wdcOk_outq (cfg : Config) (p : Parser) :
    (wdcOk cfg p).outq = if emits cfg p.ptc then p.outq ++ [p.payloadFrame] else p.outq := by
  unfold wdcOk; split <;> rfl

/-- A transition appends to the queue at most one Frame (R227). -/
theorem transitionEffect_outq_prefix (cfg : Config) (tr : Transition) (b : Byte) (p : Parser) :
    p.outq <+: (transitionEffect cfg tr b p).outq := by
  by_cases h : tr = .wdcOk
  · subst h
    show p.outq <+: (wdcOk cfg p).outq
    rw [wdcOk_outq]; split <;> simp
  · rw [transitionEffect_outq cfg tr b p h]

/-- No transition writes `t_last`. -/
theorem transitionEffect_tLast (cfg : Config) (tr : Transition) (b : Byte) (p : Parser) :
    (transitionEffect cfg tr b p).tLast = p.tLast := by
  cases tr <;> first | rfl | (show (wdcOk cfg p).tLast = _; unfold wdcOk; split <;> rfl)

/-! ## Bytes -/

@[simp] theorem processBytes_nil (cfg : Config) (p : Parser) : processBytes cfg p [] = p := rfl

theorem processBytes_append (cfg : Config) (p : Parser) (a b : ByteString) :
    processBytes cfg p (a ++ b) = processBytes cfg (processBytes cfg p a) b := by simp [processBytes]

theorem processBytes_cons (cfg : Config) (p : Parser) (b : Byte) (bs : ByteString) :
    processBytes cfg p (b :: bs) = processBytes cfg (processByte cfg p b) bs := rfl

theorem processByte_outq_prefix (cfg : Config) (p : Parser) (b : Byte) : p.outq <+: (processByte cfg p b).outq :=
  transitionEffect_outq_prefix ..

theorem processBytes_outq_prefix (cfg : Config) (bytes : ByteString) :
    ∀ p : Parser, p.outq <+: (processBytes cfg p bytes).outq := by
  induction bytes with
  | nil => intro p; exact List.prefix_rfl
  | cons b bs ih => intro p; exact (processByte_outq_prefix cfg p b).trans (ih _)

theorem processBytes_tLast (cfg : Config) (bytes : ByteString) :
    ∀ p : Parser, (processBytes cfg p bytes).tLast = p.tLast := by
  induction bytes with
  | nil => intro p; rfl
  | cons b bs ih => intro p; rw [processBytes_cons, ih]; exact transitionEffect_tLast ..

/-! ## Reads -/

@[simp] theorem readBytes_nil (cfg : Config) (t : Nat) (p : Parser) : readBytes cfg t [] p = p := by simp [readBytes]

theorem readBytes_of_ne {bytes : ByteString} (cfg : Config) (t : Nat) (p : Parser) (h : bytes ≠ []) :
    readBytes cfg t bytes p = (processBytes cfg (gapForce cfg t p) bytes).stamp t := by
  simp [readBytes, h]

theorem gapForce_outq (cfg : Config) (t : Nat) (p : Parser) : (gapForce cfg t p).outq = p.outq := by
  unfold gapForce; split <;> rfl

/-- The gap rule writes no register but `st` (R235). -/
theorem gapForce_tLast (cfg : Config) (t : Nat) (p : Parser) : (gapForce cfg t p).tLast = p.tLast := by
  unfold gapForce; split <;> rfl

@[simp] theorem openRead_nil (t : Nat) (s : State) : openRead t [] s = s := by simp [openRead]

theorem openRead_of_ne {bytes : ByteString} (t : Nat) (s : State) (h : bytes ≠ []) :
    openRead t bytes s = (s.putParser (gapForce s.cfg t s.parser)).putReading (some ⟨t, bytes⟩) := by
  simp [openRead, h]

theorem readBytes_outq_prefix (cfg : Config) (t : Nat) (bytes : ByteString) (p : Parser) :
    p.outq <+: (readBytes cfg t bytes p).outq := by
  by_cases h : bytes = []
  · simp [h]
  · rw [readBytes_of_ne cfg t p h]
    have := processBytes_outq_prefix cfg bytes (gapForce cfg t p)
    rwa [gapForce_outq] at this

end Sys2Proof.Machine
end

