-- ==== Sys2Proof/Laws/Step.lean ====
section
/-! SUPPORT. What one instruction and one step can do. -/

namespace Sys2Proof.Machine

/-- The four ways an instruction answers a next state: an outcome goes to a caller; a report goes out; the run stops;
or the parser's registers change, the run possibly begun anew. -/
inductive ExecCase (s s' : State) : Prop where
  | answered (r : Reply Value) (h : s' = s.putResult r)
  | reported (info : Text) (h : s' = s.addReport info)
  | stoppedRun (h : s' = s.putStopped true)
  | reset (h : s' = (s.putParser Parser.reset).putStopped false)
  | read (t : Nat) (bytes : ByteString)
      (room : overfull s.cfg s.parser (readBytes s.cfg t bytes s.parser) = false)
      (h : s' = s.putParser (readBytes s.cfg t bytes s.parser))
  | moved (b : Byte)
      (room : overfull s.cfg s.parser (processByte s.cfg s.parser b) = false)
      (h : s' = s.putParser (processByte s.cfg s.parser b))

theorem ExecCase.of_runTransition {tr : Transition} {b : Byte} {s s' : State} (h : runTransition tr b s = .next s') :
    ExecCase s s' := by
  obtain ⟨-, ht, hr, rfl⟩ := runTransition_next.mp h
  subst ht
  exact .moved b hr rfl

/-- What an instruction that answers a next state has done. -/
theorem exec_cases {i : Instr} {s s' : State} (h : exec i s = .next s') : ExecCase s s' := by
  cases i with
  | spRead t bytes =>
    obtain ⟨-, hr, rfl⟩ := commit_next.mp h
    exact .read t bytes hr rfl
  | spReadErr t info =>
    simp only [exec, execSpReadErr] at h
    split at h <;> cases h
    exact .reported info rfl
  | spStop =>
    simp only [exec, execSpStop] at h
    split at h <;> cases h
    exact .stoppedRun rfl
  | spReset => cases h; exact .reset rfl
  | spWsSync | spWsSkip | spWhAcc | spWhcOk | spWhcZeroSync | spWhcZero | spWhcResyncNone | spWhcResyncCur
  | spWhcResyncBuf | spWdAcc | spWdcSync | spWdcOk | spWdcBad => exact .of_runTransition h
  | _ => cases h; exact .answered _ rfl

/-- An instruction that a selection gives, run. -/
theorem fetchSelection_run {sel : Selection} {s1 s2 : State} {i : Instr} (h : fetchSelection sel s1 = .run i s2) :
    s2 = s1 ∧ decode sel = .ok i := by
  unfold fetchSelection at h
  split at h
  · split at h <;> cases h
    exact ⟨rfl, by assumption⟩
  · cases h

/-- A selection gives an instruction to run, or a refusal. -/
theorem fetchSelection_cases (sel : Selection) (s1 : State) :
    (∃ i, fetchSelection sel s1 = .run i s1 ∧ decode sel = .ok i) ∨ ∃ r, fetchSelection sel s1 = .refuse r := by
  cases h : fetchSelection sel s1 with
  | run i s2 => obtain ⟨rfl, hd⟩ := fetchSelection_run h; exact .inl ⟨i, rfl, hd⟩
  | refuse r => exact .inr ⟨r, rfl⟩
  | idle | did s2 =>
    exfalso
    unfold fetchSelection at h
    split at h
    · split at h <;> cases h
    · cases h

/-- What a step that answers a next state has done: nothing; a call; a take; the begin of a read; a byte of it; its end.
A byte is processed in a read only (R291). -/
inductive StepCase (s s' : State) : Prop where
  | idle (hr : s.reading = none) (hi : s.inputs = []) (h : s' = s)
  | called (op : Byte) (ports : Operands) (rest : List Input) (i : Instr) (hr : s.reading = none)
      (hi : s.inputs = .call op ports :: rest) (hd : decode (.op8 op ports) = .ok i)
      (h : exec i { s with inputs := rest } = .next s')
  | took (rest : List Input) (hr : s.reading = none) (hi : s.inputs = .take :: rest)
      (h : s' = consumerTake { s with inputs := rest })
  | opened (t : Nat) (bytes : ByteString) (rest : List Input) (hr : s.reading = none)
      (hi : s.inputs = .bytewiseRead t bytes :: rest) (hs : s.stopped = false)
      (h : s' = openRead t bytes { s with inputs := rest })
  | processed (t : Nat) (b : Byte) (bytes : ByteString) (i : Instr) (hr : s.reading = some ⟨t, b :: bytes⟩)
      (hd : decode (parserSelection s.parser b) = .ok i)
      (h : exec i (s.putReading (some ⟨t, bytes⟩)) = .next s')
  | closed (t : Nat) (hr : s.reading = some ⟨t, []⟩) (h : s' = closeRead t s)

theorem step_cases {s s' : State} (h : step s = .next s') : StepCase s s' := by
  unfold step at h
  cases hr : s.reading with
  | some r =>
    obtain ⟨t, bytes⟩ := r
    cases bytes with
    | nil =>
      simp only [fetch, hr, fetchReading] at h
      cases h
      exact .closed t hr rfl
    | cons b rest =>
      simp only [fetch, hr, fetchReading] at h
      rcases fetchSelection_cases (parserSelection s.parser b) (s.putReading (some ⟨t, rest⟩)) with
        ⟨i, hf, hd⟩ | ⟨r, hf⟩ <;> rw [hf] at h
      · exact .processed t b rest i hr hd h
      · cases h
  | none =>
    have outside : fetch s = fetchInput s := by simp only [fetch, hr]
    cases hi : s.inputs with
    | nil =>
      simp only [outside, fetchInput, hi] at h
      cases h
      exact .idle hr hi rfl
    | cons inp rest =>
      cases inp with
      | call op ports =>
        simp only [outside, fetchInput, hi] at h
        rcases fetchSelection_cases (.op8 op ports) { s with inputs := rest } with
          ⟨i, hf, hd⟩ | ⟨r, hf⟩
        · rw [hf] at h
          exact .called op ports rest i hr hi hd h
        · rw [hf] at h; cases h
      | bytewiseRead t bytes =>
        simp only [outside, fetchInput, hi] at h
        by_cases hs : s.stopped = true
        · rw [if_pos hs] at h; cases h
        · rw [if_neg hs] at h
          cases h
          exact .opened t bytes rest hr hi (Bool.eq_false_iff.mpr hs) rfl
      | take =>
        simp only [outside, fetchInput, hi] at h
        cases h
        exact .took rest hr hi rfl

end Sys2Proof.Machine
end

