-- ==== Sys2Proof/Tests/Slice0.lean ====
section
/-! SUPPORT. Tests: what WellFormed refuses, selection words written out from 30_encoding.md R98 and R99, vectors of
95_test_vectors.md, and for every obligation with hypotheses a witness that meets them. Expected values are the spec's. -/

namespace Sys2Proof.Tests
open Sys2Proof Sys2Proof.Machine

/-! ## Small states -/

/-- The outcome of an operation called right after reset. -/
def outcome (i : Instr) : Option (Reply Value) :=
  match exec i State.reset with
  | .next s => s.result
  | .fault _ => none
  | .refused _ => none

/-- The registers after an instruction, or none where it answers no next state. -/
def registers (i : Instr) (s : State) : Option Parser :=
  match exec i s with
  | .next s' => some s'.parser
  | .fault _ => none
  | .refused _ => none

/-- Why an instruction is refused, or none. -/
def refusal (o : Host.Outcome State Fault Refusal) : Option Refusal :=
  match o with
  | .refused r => some r
  | .next _ => none
  | .fault _ => none

/-- Reset, with other registers. -/
def withRegs (p : Parser) : State := { State.reset with parser := p }

/-- After `55 00 01 01` of G (V-SP-1). -/
def whRegs : Parser := { Parser.reset with st := .wh, crc := 0x12, hbuf := [0x00, 0x01, 0x01] }

/-- In WHC with the four header bytes and their checksum. -/
def whcRegs (hbuf : ByteString) (crc : Byte) : Parser := { Parser.reset with st := .whc, hbuf := hbuf, crc := crc }

/-- After `55 00 01 01 pt 70 aa` (V-SP-1, V-SP-13). -/
def wdRegs (pt : Byte) : Parser :=
  { Parser.reset with
    st := .wd, crc := 0x5F, hbuf := [0x00, 0x01, 0x01, pt], dlen := 1, olen := 1, ptc := pt, pbuf := [0xAA] }

/-- After the last payload byte of the same frame. -/
def wdcRegs (pt : Byte) : Parser := { wdRegs pt with st := .wdc, crc := 0xB2, pbuf := [0xAA, 0xBB] }

/-- G of 95_test_vectors.md. -/
def g : ByteString := [0x55, 0x00, 0x01, 0x01, 0x02, 0x70, 0xAA, 0xBB, 0xB2]

/-- The Frame of G. -/
def gFrame : Frame := ⟨0x02, [0xAA], [0xBB]⟩

/-- The packet of S8, whose `security_level` is 0x00. -/
def s8 : Erp1Packet :=
  ⟨0x12345678, 0xFF820085, 0xD2, 0xFF, 0x00, 0x80, 0x03, [0x00, 0x00, 0x00, 0x00, 0xFF, 0x03]⟩

/-- The frame of S8. -/
def s8Frame : Frame :=
  ⟨0x01, [0xD2, 0x00, 0x00, 0x00, 0x00, 0xFF, 0x03, 0xFF, 0x82, 0x00, 0x85, 0x80],
    [0x03, 0x12, 0x34, 0x56, 0x78, 0xFF, 0x00]⟩

/-- The machine with a finite queue depth. -/
def withDepth (d : Nat) (p : Parser) : State :=
  { State.reset with cfg := { defaultConfig with outqDepth := some d }, parser := p }

/-! ## WellFormed: one ill-formed term for each check -/

theorem test_wf_wsSkip : (Instr.spWsSkip 0x55).wf = false ∧ (Instr.spWsSkip 0x54).wf = true := by decide
theorem test_wf_whcZero : (Instr.spWhcZero 0x55).wf = false ∧ (Instr.spWhcZero 0x0E).wf = true := by decide
theorem test_wf_whcResyncNone :
    (Instr.spWhcResyncNone 0x55).wf = false ∧ (Instr.spWhcResyncNone 0x71).wf = true := by decide
theorem test_wf_wdcOk : (Instr.spWdcOk 0x55).wf = false ∧ (Instr.spWdcOk 0xB2).wf = true := by decide
theorem test_wf_wdcBad : (Instr.spWdcBad 0x55).wf = false ∧ (Instr.spWdcBad 0xB3).wf = true := by decide

/-! ## Decoding: words written out from R98 (the select codes) and R99 (conditions, state code, byte) -/

/-- U1, codes 10 and 11. -/
theorem test_decode_crc :
    decode (.op8 0b00010000 { Operands.zero with byte := 0x12, crc := 0x34 }) = .ok (.crcStep 0x12 0x34) ∧
    decode (.op8 0b00010001 { Operands.zero with str := [0xAA, 0xBB] }) = .ok (.crcFold [0xAA, 0xBB]) := ⟨rfl, rfl⟩

/-- U2, codes 20 to 25. -/
theorem test_decode_did :
    decode (.op8 0b00100000 { Operands.zero with word := 0xFFA }) = .ok (.didToBytes 0xFFA) ∧
    decode (.op8 0b00100001 { Operands.zero with word := 0xFFA }) = .ok (.didToString 0xFFA) ∧
    decode (.op8 0b00100010 { Operands.zero with str := text "ffa" }) = .ok (.didFromHex (text "ffa")) ∧
    decode (.op8 0b00100011 { Operands.zero with str := [0x12] }) = .ok (.didFromBytes [0x12]) ∧
    decode (.op8 0b00100100 Operands.zero) = .ok .didBroadcast ∧
    decode (.op8 0b00100101 { Operands.zero with word := 7 }) = .ok (.didFromU32 7) := ⟨rfl, rfl, rfl, rfl, rfl, rfl⟩

/-- U3, codes 30 to 33. -/
theorem test_decode_enums :
    decode (.op8 0b00110000 { Operands.zero with byte := 1 }) = .ok (.ptParseByte 1) ∧
    decode (.op8 0b00110001 { Operands.zero with byte := 2 }) = .ok (.ptFormat 2) ∧
    decode (.op8 0b00110010 { Operands.zero with byte := 3 }) = .ok (.rorgParseByte 3) ∧
    decode (.op8 0b00110011 { Operands.zero with byte := 4 }) = .ok (.rorgFormat 4) := ⟨rfl, rfl, rfl, rfl⟩

/-- U4, codes 40 to 44. -/
theorem test_decode_frame :
    decode (.op8 0b01000000 { Operands.zero with frame := gFrame }) = .ok (.frameSerialize gFrame) ∧
    decode (.op8 0b01000001 { Operands.zero with str := g }) = .ok (.frameParse g) ∧
    decode (.op8 0b01000010 { Operands.zero with byte := 2, str := [0xAA], optStr := [0xBB] }) =
      .ok (.frameFromParts 2 [0xAA] [0xBB]) ∧
    decode (.op8 0b01000011 { Operands.zero with str := text "55" }) = .ok (.frameParseHex (text "55")) ∧
    decode (.op8 0b01000100 { Operands.zero with frame := gFrame }) = .ok (.frameSerializeHex gFrame) :=
  ⟨rfl, rfl, rfl, rfl, rfl⟩

/-- U5, codes 50 to 53. -/
theorem test_decode_events :
    decode (.op8 0b01010000 { Operands.zero with time := 9, str := g }) = .ok (.spRead 9 g) ∧
    decode (.op8 0b01010001 { Operands.zero with time := 3, str := text "e" }) = .ok (.spReadErr 3 (text "e")) ∧
    decode (.op8 0b01010010 Operands.zero) = .ok .spStop ∧
    decode (.op8 0b01010011 Operands.zero) = .ok .spReset := ⟨rfl, rfl, rfl, rfl⟩

/-- U6, codes 60 to 62. -/
theorem test_decode_erp1 :
    decode (.op8 0b01100000 { Operands.zero with frame := s8Frame }) = .ok (.erp1Decode s8Frame) ∧
    decode (.op8 0b01100001 { Operands.zero with packet := s8 }) = .ok (.erp1Encode s8) ∧
    decode (.op8 0b01100010 { Operands.zero with packet := s8 }) = .ok (.erp1Serialize s8) := ⟨rfl, rfl, rfl⟩

/-- R99, state codes 000 (WS) and 001 (WH). -/
theorem test_decode_ws_wh :
    decode (.spKey 0b000_000_01010101) = .ok .spWsSync ∧
    decode (.spKey 0b000_000_00010011) = .ok (.spWsSkip 0x13) ∧
    decode (.spKey 0b000_001_01010101) = .ok (.spWhAcc 0x55) := ⟨rfl, rfl, rfl⟩

/-- R99, state code 010 (WHC); the leading bits are SYNC in `hbuf`, lengths zero, `b == crc` (log 3). -/
theorem test_decode_whc :
    decode (.spKey 0b001_010_01110000) = .ok (.spWhcOk 0x70) ∧
    decode (.spKey 0b001_010_01010101) = .ok (.spWhcOk 0x55) ∧
    decode (.spKey 0b011_010_01010101) = .ok .spWhcZeroSync ∧
    decode (.spKey 0b011_010_00001110) = .ok (.spWhcZero 0x0E) ∧
    decode (.spKey 0b000_010_01110001) = .ok (.spWhcResyncNone 0x71) ∧
    decode (.spKey 0b000_010_01010101) = .ok .spWhcResyncCur ∧
    decode (.spKey 0b100_010_00000010) = .ok (.spWhcResyncBuf 0x02) ∧
    decode (.spKey 0b110_010_01010101) = .ok (.spWhcResyncBuf 0x55) :=
  ⟨rfl, rfl, rfl, rfl, rfl, rfl, rfl, rfl⟩

/-- R99, state codes 011 (WD) and 100 (WDC). -/
theorem test_decode_wd_wdc :
    decode (.spKey 0b000_011_01010101) = .ok (.spWdAcc 0x55) ∧
    decode (.spKey 0b000_100_01010101) = .ok .spWdcSync ∧
    decode (.spKey 0b001_100_01010101) = .ok .spWdcSync ∧
    decode (.spKey 0b001_100_10110010) = .ok (.spWdcOk 0xB2) ∧
    decode (.spKey 0b000_100_10110011) = .ok (.spWdcBad 0xB3) := ⟨rfl, rfl, rfl, rfl, rfl⟩

/-- R98, R27: a code outside the list and the state codes 5 to 7 select nothing. -/
theorem test_decode_nothing :
    decode (.op8 0x12 Operands.zero) = .error (.badOp 0x12) ∧ decode (.op8 0x63 Operands.zero) = .error (.badOp 0x63) ∧
    decode (.spKey 0b000_101_00000000) = .error (.badStateCode 5) ∧
    decode (.spKey 0b000_111_01010101) = .error (.badStateCode 7) := ⟨rfl, rfl, rfl, rfl⟩

/-! ## Operations: part 2 of 95_test_vectors.md and S6 to S10 -/

theorem test_crcStep : outcome (.crcStep 0xBB 0x5F) = some (.ok (.byte 0xB2)) := by decide
theorem test_crcStep_cancels : outcome (.crcStep 0xFF 0xFF) = some (.ok (.byte 0x00)) := by decide
theorem test_crcFold_check :
    outcome (.crcFold (text "123456789")) = some (.ok (.byte 0xF4)) := by decide
theorem test_crcFold_empty : outcome (.crcFold []) = some (.ok (.byte 0x00)) := by decide
theorem test_didToBytes : outcome (.didToBytes 0x00000FFA) = some (.ok (.bytes [0x00, 0x00, 0x0F, 0xFA])) := by decide
theorem test_didToString : outcome (.didToString 0x00000FFA) = some (.ok (.text (text "00000ffa"))) := by decide
theorem test_didFromHex : outcome (.didFromHex (text "0xffa")) = some (.ok (.ident 0x00000FFA)) := by decide
theorem test_didFromHex_length_first :
    outcome (.didFromHex (text "0xzzzzzzzzz")) = some (.err .invalidLength) := by decide
theorem test_didFromBytes : outcome (.didFromBytes [0xFF, 0xAB, 0xCD]) = some (.ok (.ident 0x00FFABCD)) := by decide
theorem test_didFromBytes_long :
    outcome (.didFromBytes [0x00, 0x01, 0x02, 0x03, 0x04]) = some (.err .invalidLength) := by decide
theorem test_didBroadcast : outcome .didBroadcast = some (.ok (.ident 0xFFFFFFFF)) := by decide
theorem test_didFromU32 : outcome (.didFromU32 0x12345678) = some (.ok (.ident 0x12345678)) := by decide
theorem test_ptParseByte : outcome (.ptParseByte 0x08) = some (.err .unknownCode) := by decide
theorem test_ptFormat : outcome (.ptFormat 0x0A) = some (.ok (.text (text "RADIO_ERP2"))) := by decide
theorem test_rorgParseByte : outcome (.rorgParseByte 0xD2) = some (.ok (.byte 0xD2)) := by decide
theorem test_rorgFormat : outcome (.rorgFormat 0x00) = some (.ok (.text (text "UNKNOWN"))) := by decide
theorem test_frameSerialize : outcome (.frameSerialize gFrame) = some (.ok (.bytes g)) := by decide
theorem test_frameSerialize_sync_inside :
    outcome (.frameSerialize ⟨0x04, [0x55, 0x55], [0x55]⟩) =
      some (.ok (.bytes [0x55, 0x00, 0x02, 0x01, 0x04, 0xDF, 0x55, 0x55, 0x55, 0x05])) := by decide
theorem test_frameParse_extra_byte :
    outcome (.frameParse [0x55, 0x00, 0x01, 0x01, 0x02, 0x70, 0xAA, 0xBB, 0xCC, 0x7D]) =
      some (.ok (.frame ⟨0x02, [0xAA], [0xBB, 0xCC]⟩)) := by decide
theorem test_frameParse_slice :
    outcome (.frameParse [0x55, 0x00, 0x03, 0x00, 0x02, 0xB3, 0xAA, 0xBB, 0xB2]) = some (.fault .sliceRange) := by decide
theorem test_frameFromParts : outcome (.frameFromParts 0x08 [0xAA] [0xBB]) = some (.ok (.frame ⟨0x08, [0xAA], [0xBB]⟩)) := by
  decide
theorem test_frameFromParts_long :
    outcome (.frameFromParts 0x02 [] (List.replicate 256 0)) = some (.fault .lenLimit) := by decide +kernel
theorem test_frameParseHex :
    outcome (.frameParseHex (text "550001010270AABBB2")) = some (.ok (.frame gFrame)) := by decide
theorem test_frameParseHex_odd :
    outcome (.frameParseHex (text "50001010270aabbb2")) = some (.err .missingSync) := by decide
theorem test_frameSerializeHex :
    outcome (.frameSerializeHex gFrame) = some (.ok (.text (text "550001010270aabbb2"))) := by decide
theorem test_erp1Decode : outcome (.erp1Decode s8Frame) = some (.ok (.packet s8)) := by decide
theorem test_erp1Decode_type_first :
    outcome (.erp1Decode ⟨0x02, [], []⟩) = some (.err .wrongPacketType) := by decide
theorem test_erp1Encode :
    outcome (.erp1Encode s8) =
      some (.ok (.frame ⟨0x01, s8Frame.data, [0x03, 0x12, 0x34, 0x56, 0x78, 0xFF, 0x03]⟩)) := by decide
theorem test_erp1Serialize :
    outcome (.erp1Serialize s8) = some (.ok (.bytes
      [0x55, 0x00, 0x0C, 0x07, 0x01, 0x96, 0xD2, 0x00, 0x00, 0x00, 0x00, 0xFF, 0x03, 0xFF, 0x82, 0x00, 0x85, 0x80,
        0x03, 0x12, 0x34, 0x56, 0x78, 0xFF, 0x03, 0xA8])) := by decide +kernel

/-- R280, R282: the first and last of the codes. -/
theorem test_codes : Err.invalidLength.code = 1 ∧ Err.optDataTooShort.code = 10 ∧ OpFault.sliceRange.code = 1 ∧
    OpFault.lenLimit.code = 2 := by decide

/-! ## Transitions and events: section 2.5 of 95_test_vectors.md -/

/-- V-SP-1, first line. -/
theorem test_wsSync : registers .spWsSync State.reset = some { Parser.reset with st := .wh } := by decide
/-- P2: garbage before a sync byte. -/
theorem test_wsSkip : registers (.spWsSkip 0x13) State.reset = some Parser.reset := by decide
/-- V-SP-1, fifth line. -/
theorem test_whAcc : registers (.spWhAcc 0x02) (withRegs whRegs) =
    some (whcRegs [0x00, 0x01, 0x01, 0x02] 0x70) := by decide
/-- V-SP-1, sixth line. -/
theorem test_whcOk : registers (.spWhcOk 0x70) (withRegs (whcRegs [0x00, 0x01, 0x01, 0x02] 0x70)) =
    some { Parser.reset with st := .wd, hbuf := [0x00, 0x01, 0x01, 0x02], dlen := 1, olen := 1, ptc := 2 } := by decide
/-- V-SP-7. -/
theorem test_whcZeroSync : registers .spWhcZeroSync (withRegs (whcRegs [0x00, 0x00, 0x00, 0xC5] 0x55)) =
    some { Parser.reset with st := .wh, ptc := 0xC5 } := by decide
/-- V-SP-2. -/
theorem test_whcZero : registers (.spWhcZero 0x0E) (withRegs (whcRegs [0x00, 0x00, 0x00, 0x02] 0x0E)) =
    some { Parser.reset with st := .ws, ptc := 0x02, crc := 0x0E, hbuf := [0x00, 0x00, 0x00, 0x02] } := by decide
/-- V-SP-12 (a). -/
theorem test_whcResyncNone : registers (.spWhcResyncNone 0x71) (withRegs (whcRegs [0x00, 0x01, 0x01, 0x02] 0x70)) =
    some { whcRegs [0x00, 0x01, 0x01, 0x02] 0x70 with st := .ws } := by decide
/-- V-SP-12 (b). -/
theorem test_whcResyncCur : registers .spWhcResyncCur (withRegs (whcRegs [0x00, 0x01, 0x01, 0x02] 0x70)) =
    some { Parser.reset with st := .wh } := by decide
/-- V-SP-15: the first 0x55 is at index 1. -/
theorem test_whcResyncBuf : registers (.spWhcResyncBuf 0x01) (withRegs (whcRegs [0x00, 0x55, 0x00, 0x01] 0xE3)) =
    some { Parser.reset with st := .wh, hbuf := [0x00, 0x01, 0x01], crc := 0x12 } := by decide
/-- V-SP-5: at index 0 the state stays WHC. -/
theorem test_whcResyncBuf_stays : registers (.spWhcResyncBuf 0x02) (withRegs (whcRegs [0x55, 0x00, 0x01, 0x01] 0xA0)) =
    some (whcRegs [0x00, 0x01, 0x01, 0x02] 0x70) := by decide
/-- V-SP-1, eighth line. -/
theorem test_wdAcc : registers (.spWdAcc 0xBB) (withRegs (wdRegs 0x02)) = some (wdcRegs 0x02) := by decide
/-- V-SP-3: the checksum byte 0x55 abandons the frame although it is right. -/
theorem test_wdcSync : registers .spWdcSync (withRegs { wdcRegs 0x02 with crc := 0x55 }) =
    some { wdcRegs 0x02 with st := .wh, hbuf := [], crc := 0x00 } := by decide
/-- V-SP-1, last line. -/
theorem test_wdcOk : registers (.spWdcOk 0xB2) (withRegs (wdcRegs 0x02)) =
    some { wdcRegs 0x02 with st := .ws, outq := [gFrame] } := by decide
/-- V-SP-13 with `drop`. -/
theorem test_wdcOk_unknown : registers (.spWdcOk 0xB2) (withRegs (wdcRegs 0x08)) =
    some { wdcRegs 0x08 with st := .ws } := by decide
/-- V-SP-8. -/
theorem test_wdcBad : registers (.spWdcBad 0xB3) (withRegs (wdcRegs 0x02)) =
    some { wdcRegs 0x02 with st := .ws } := by decide
/-- R99: a transition the registers do not select is no move. -/
theorem test_notSelected : refusal (exec (.spWhAcc 0x02) State.reset) = some .notSelected := by decide
/-- V-SP-1, V-SP-11: one read of G. -/
theorem test_spRead : registers (.spRead 0 g) State.reset =
    some { wdcRegs 0x02 with st := .ws, outq := [gFrame], tLast := some 0 } := by decide
/-- V-SP-10 (b): a gap of 100 ms. -/
theorem test_spRead_gap :
    registers (.spRead 100 [0x02, 0x70, 0xAA, 0xBB, 0xB2]) (withRegs { whRegs with tLast := some 0 }) =
      some { whRegs with st := .ws, tLast := some 100 } := by decide
/-- V-SP-17: the report goes out, `t_last` stays. -/
theorem test_spReadErr : registers (.spReadErr 3 (text "e")) (withRegs whRegs) = some whRegs := by decide
/-- V-SP-17: nothing is flushed. -/
theorem test_spStop : registers .spStop (withRegs (wdRegs 0x02)) = some (wdRegs 0x02) := by decide
/-- R35, R239. -/
theorem test_spReset : registers .spReset (withRegs (wdcRegs 0x02)) = some Parser.reset := by decide

/-! ## One step -/

/-- A call is fetched with its ports and consumed. -/
theorem test_step_call :
    (match step { State.reset with inputs := [.call 0x10 { Operands.zero with byte := 0xBB, crc := 0x5F }] } with
      | .next s => (s.result, s.inputs)
      | _ => (none, [])) = (some (.ok (.byte 0xB2)), []) := by decide
/-- The table word of FRAME.PARSE with empty operands runs: `err(TooShort)`. -/
theorem test_step_table_word :
    (match step (State.reset.withFetchWord 8 0x41) with
      | .next s => s.result
      | _ => none) = some (.err .tooShort) := by decide
/-- R212, R233, R31: from reset, a read taken byte by byte: its begin, its one byte, its end. -/
theorem test_step_bytewise_read :
    (match runSteps 2 { State.reset with inputs := [.bytewiseRead 5 [0x55]] } with
      | .next s => (s.parser.st, s.parser.tLast, s.reading)
      | _ => (.ws, none, none)) = (.wh, none, some ⟨5, []⟩) ∧
    (match runSteps 3 { State.reset with inputs := [.bytewiseRead 5 [0x55]] } with
      | .next s => (s.parser.st, s.parser.tLast, s.reading)
      | _ => (.ws, none, none)) = (.wh, some 5, none) := ⟨rfl, rfl⟩
/-- A selection word of WDC with `b == crc` runs SP.WDC.OK. -/
theorem test_step_selection_word :
    (match step (State.reset.withFetchWord 16 0b001_100_10110010) with
      | .next s => (s.parser.st, s.parser.crc)
      | _ => (.wdc, 0)) = (.ws, 0xB2) := by decide
/-- The consumer takes the oldest Frame. -/
theorem test_step_take :
    (match step { State.reset with parser := { Parser.reset with outq := [gFrame, s8Frame] }, inputs := [.take] } with
      | .next s => (s.taken, s.parser.outq)
      | _ => ([], [])) = ([gFrame], [s8Frame]) := by decide

/-! ## Witnesses: for each obligation with hypotheses, values that meet them, a clause at a time -/

/-- The next state an operation answers right after reset. -/
def answered (r : Reply Value) : State := { State.reset with result := some r }

theorem witness_FoldAppliesStepFromZero : ([] : ByteString) = [] := rfl

theorem witness_ChecksumOfCheckedStringIsZero :
    exec (.crcFold [0xAA, 0xBB]) State.reset = .next (answered (.ok (.byte 0xB2))) ∧
    exec (.frameSerialize gFrame) State.reset = .next (answered (.ok (.bytes g))) := ⟨rfl, rfl⟩

theorem witness_ChecksumIsLinear : ([0xAA, 0xBB] : ByteString).length = ([0x01, 0x02] : ByteString).length := rfl

theorem witness_OneWrongByteChangesTheChecksum : (0xB2 : Byte) ≠ 0xB3 := by decide

theorem witness_FromBytesPadsOrRejects :
    4 < ([0x00, 0x01, 0x02, 0x03, 0x04] : ByteString).length ∧
    ([0x01, 0x02, 0x03, 0x04] : ByteString).length ≤ 4 ∧ ([] : ByteString).length ≤ 4 := by decide

/-- The prefix clause with nine and eight characters left, a bad and a good text. -/
theorem witness_FromHexStepsInOrder_prefix :
    text "0x123456789" = text "0x" ++ text "123456789" ∧ 8 < (text "123456789").length ∧
    text "0x0x12" = text "0x" ++ text "0x12" ∧ (text "0x12").length ≤ 8 ∧ ¬ AllHex (text "0x12") ∧
    text "0xDeadBeef" = text "0x" ++ text "DeadBeef" ∧ (text "DeadBeef").length ≤ 8 ∧ AllHex (text "DeadBeef") := by
  decide

/-- The clause without a prefix: `0X` is none. -/
theorem witness_FromHexStepsInOrder_plain :
    (text "0XFF" = text "0XFF" ∧ ∀ more : Text, text "0XFF" ≠ text "0x" ++ more) ∧
    (text "0XFF").length ≤ 8 ∧ ¬ AllHex (text "0XFF") := by
  refine ⟨⟨rfl, fun more h => ?_⟩, by decide, by decide⟩
  have h2 := congrArg (List.take 2) h
  rw [List.take_left' (by decide)] at h2
  exact absurd h2 (by decide)

theorem witness_IdentifierRoundTrips :
    exec (.didToBytes 0x00000FFA) State.reset = .next (answered (.ok (.bytes [0x00, 0x00, 0x0F, 0xFA]))) ∧
    exec (.didToString 0x00000FFA) State.reset = .next (answered (.ok (.text (text "00000ffa")))) ∧
    ([0x00, 0x00, 0x0F, 0xFA] : ByteString).length = 4 ∧
    exec (.didFromBytes [0x00, 0x00, 0x0F, 0xFA]) State.reset = .next (answered (.ok (.ident 0x00000FFA))) :=
  ⟨rfl, rfl, rfl, rfl⟩

theorem witness_ParseByteIsStrict :
    (0x01 : Byte) ∈ State.reset.cfg.ptTable.map Prod.fst ∧ (0x08 : Byte) ∉ State.reset.cfg.ptTable.map Prod.fst ∧
    (0xD2 : Byte) ∈ State.reset.cfg.rorgTable.map Prod.fst ∧
    (0x00 : Byte) ∉ State.reset.cfg.rorgTable.map Prod.fst := by decide

theorem witness_FormatGivesMnemonicOrUnknown :
    (State.reset.cfg.ptTable.map Prod.fst).Nodup ∧ (State.reset.cfg.rorgTable.map Prod.fst).Nodup ∧
    ((0x01 : Byte), text "RADIO_ERP1") ∈ State.reset.cfg.ptTable ∧
    (0x08 : Byte) ∉ State.reset.cfg.ptTable.map Prod.fst ∧
    ((0xD2 : Byte), text "VLD") ∈ State.reset.cfg.rorgTable ∧
    (0x00 : Byte) ∉ State.reset.cfg.rorgTable.map Prod.fst := by decide

/-- A configuration other than the default: EVENT under another code, and every open parameter changed. -/
def otherConfig : Config where
  ptTable := (0x20, text "EVENT") :: (0x21, text "OTHER") :: (defaultPtTable.eraseIdx 3).eraseIdx 3
  rorgTable := defaultRorgTable
  spUnknownPt := .emitRaw
  erp1StrictRorg := true
  timeUnitNs := 1
  outqDepth := some 4
  pbufMax := 70000
  inMax := some 100000

theorem witness_SourceGivenCodesHold : ConfigAdmissible State.reset.cfg ∧ ConfigAdmissible otherConfig := ⟨by decide, by decide⟩

/-- Both lengths at their limits. -/
theorem witness_FromPartsKeepsItsParts :
    (List.replicate 65535 (0x00 : Byte)).length ≤ 65535 ∧ (List.replicate 255 (0x00 : Byte)).length ≤ 255 := by
  simp only [List.length_replicate]; decide

theorem witness_SerializeWritesTheWireFormat :
    FrameWithinLimits ⟨0x02, List.replicate 65535 0x00, List.replicate 255 0x00⟩ ∧ FrameWithinLimits ⟨0x08, [], []⟩ := by
  simp only [FrameWithinLimits, List.length_replicate]; decide

/-- One more than each limit. -/
theorem witness_OverLongLengthsAreFaults :
    65535 < (Frame.data ⟨0x02, List.replicate 65536 0x00, []⟩).length ∧
    255 < (Frame.optData ⟨0x02, [], List.replicate 256 0x00⟩).length ∧
    65529 < (Erp1Packet.userData { s8 with userData := List.replicate 65530 0x00 }).length := by
  simp only [List.length_replicate]; decide

/-- Each check failing in turn, then none, with the whole payload and with none of it as data. -/
theorem witness_FrameParseFirstFailingCheckDecides :
    ([0x55, 0x00, 0x00, 0x00, 0x02, 0x0E] : ByteString).length < 7 ∧
    (0x54 : Byte) ≠ 0x55 ∧
    crcFold [0x00, 0x01, 0x01, 0x02] ≠ 0x71 ∧
    (crcFold [0x00, 0x01, 0x01, 0x08] = 0x46 ∧ (0x08 : Byte) ∉ State.reset.cfg.ptTable.map Prod.fst) ∧
    (crcFold [0x00, 0x01, 0x01, 0x02] = 0x70 ∧ (0x02 : Byte) ∈ State.reset.cfg.ptTable.map Prod.fst ∧
      crcFold [0xAA, 0xBB] ≠ 0xB3) ∧
    (crcFold [0x00, 0x02, 0x05, 0x02] = 0x99 ∧ crcFold [0xAA, 0xBB] = 0xB2 ∧
      (0x00 : Byte).toNat * 256 + (0x02 : Byte).toNat ≤ ([0xAA, 0xBB] : ByteString).length) ∧
    (crcFold [0x00, 0x00, 0x00, 0x02] = 0x0E ∧ crcFold [] = 0x00) := by decide

/-- One data byte more than the payload holds. -/
theorem witness_FrameParseMissingSliceIsAFault :
    (0x02 : Byte) ∈ State.reset.cfg.ptTable.map Prod.fst ∧
    ([0xAA, 0xBB] : ByteString).length < (0x00 : Byte).toNat * 256 + (0x03 : Byte).toNat := by decide

theorem witness_FrameHexTextForms :
    (FrameWithinLimits gFrame ∧ gFrame.packetType ∈ State.reset.cfg.ptTable.map Prod.fst) ∧
    (text "50001010270aabbb2").length % 2 = 1 ∧
    (text "aB").map hexVal = (text "Ab").map hexVal ∧
    ¬ AllHex (text "55 00") := by decide

theorem witness_FrameParseInvertsSerialize :
    FrameWithinLimits gFrame ∧ gFrame.packetType ∈ State.reset.cfg.ptTable.map Prod.fst := by decide

theorem witness_SerializeIsInjective :
    exec (.frameSerialize gFrame) State.reset = .next (answered (.ok (.bytes g))) := rfl

theorem witness_WsSyncOpensAHeader : State.reset.stopped = false ∧ State.reset.parser.st = .ws := by decide

theorem witness_WsSkipWritesNothing :
    State.reset.stopped = false ∧ State.reset.parser.st = .ws ∧ (0x54 : Byte) ≠ 0x55 := by decide

theorem witness_WhAccBuffersAndFolds : (withRegs whRegs).stopped = false ∧ (withRegs whRegs).parser.st = .wh := by decide

/-- Each of the three length bytes alone, at its least and greatest value. -/
theorem witness_WhcOkLatchesTheHeader :
    let s := withRegs (whcRegs [0x00, 0x01, 0x01, 0x02] 0x70)
    s.stopped = false ∧ s.parser.st = .whc ∧ s.parser.hbuf = [0x00, 0x01, 0x01, 0x02] ∧
      ((0x00 : Byte) ≠ 0 ∨ (0x01 : Byte) ≠ 0 ∨ (0x01 : Byte) ≠ 0) ∧
      ((0xFF : Byte) ≠ 0 ∨ (0x00 : Byte) ≠ 0 ∨ (0x00 : Byte) ≠ 0) := by decide

theorem witness_WhcZeroSyncRestarts :
    let s := withRegs (whcRegs [0x00, 0x00, 0x00, 0xC5] 0x55)
    s.stopped = false ∧ s.parser.st = .whc ∧ s.parser.hbuf = [0, 0, 0, 0xC5] ∧ s.parser.crc = 0x55 := by decide

theorem witness_WhcZeroDropsTheFrame :
    let s := withRegs (whcRegs [0x00, 0x00, 0x00, 0x02] 0x0E)
    s.stopped = false ∧ s.parser.st = .whc ∧ s.parser.hbuf = [0, 0, 0, 0x02] ∧ s.parser.crc ≠ 0x55 := by decide

theorem witness_WhcResyncNoneDiscards :
    let s := withRegs (whcRegs [0x00, 0x01, 0x01, 0x02] 0x70)
    s.stopped = false ∧ s.parser.st = .whc ∧ (0x71 : Byte) ≠ s.parser.crc ∧ 0x55 ∉ s.parser.hbuf ∧
      (0x71 : Byte) ≠ 0x55 := by decide

theorem witness_WhcResyncCurRestarts :
    let s := withRegs (whcRegs [0x00, 0x01, 0x01, 0x02] 0x70)
    s.stopped = false ∧ s.parser.st = .whc ∧ s.parser.crc ≠ 0x55 ∧ 0x55 ∉ s.parser.hbuf := by decide

/-- The first 0x55 at index 0 and at index 3. -/
theorem witness_WhcResyncBufKeepsTheRest :
    (let s := withRegs (whcRegs [0x55, 0x00, 0x01, 0x01] 0xA0);
      s.stopped = false ∧ s.parser.st = .whc ∧ (0x02 : Byte) ≠ s.parser.crc ∧
        s.parser.hbuf = [] ++ 0x55 :: [0x00, 0x01, 0x01] ∧ 0x55 ∉ ([] : ByteString) ∧ s.parser.hbuf.length = 4) ∧
    (let s := withRegs (whcRegs [0x11, 0x22, 0x33, 0x55] 0x8E);
      s.stopped = false ∧ s.parser.st = .whc ∧ (0x00 : Byte) ≠ s.parser.crc ∧
        s.parser.hbuf = [0x11, 0x22, 0x33] ++ 0x55 :: [] ∧ 0x55 ∉ ([0x11, 0x22, 0x33] : ByteString) ∧
        s.parser.hbuf.length = 4) := by decide

theorem witness_WdAccBuffersAndFolds :
    (withRegs (wdRegs 0x02)).stopped = false ∧ (withRegs (wdRegs 0x02)).parser.st = .wd := by decide

theorem witness_WdcSyncAbandons :
    (withRegs (wdcRegs 0x02)).stopped = false ∧ (withRegs (wdcRegs 0x02)).parser.st = .wdc := by decide

/-- With an unbounded queue and with one place in a finite one. -/
theorem witness_WdcOkEmitsTheFrame :
    (let s := withRegs (wdcRegs 0x02);
      s.stopped = false ∧ s.parser.st = .wdc ∧ s.parser.crc ≠ 0x55 ∧
        s.parser.pbuf.length = s.parser.dlen.toNat + s.parser.olen.toNat ∧
        s.parser.ptc ∈ s.cfg.ptTable.map Prod.fst ∧
        ∀ depth, s.cfg.outqDepth = some depth → s.parser.outq.length < depth) ∧
    (let s := withDepth 1 (wdcRegs 0x02);
      ∀ depth, s.cfg.outqDepth = some depth → s.parser.outq.length < depth) := by
  refine ⟨⟨by decide, by decide, by decide, by decide, by decide, fun d h => ?_⟩, fun d h => ?_⟩
  · cases h
  · cases h; decide

theorem witness_WdcBadDropsTheFrame :
    let s := withRegs (wdcRegs 0x02)
    s.stopped = false ∧ s.parser.st = .wdc ∧ (0xB3 : Byte) ≠ 0x55 ∧ (0xB3 : Byte) ≠ s.parser.crc := by decide

/-- The machine with `SP_UNKNOWN_PT = emit_raw`. -/
def emitRawState (p : Parser) : State :=
  { State.reset with cfg := { defaultConfig with spUnknownPt := .emitRaw }, parser := p }

theorem witness_UnknownPacketTypeAtEmission :
    (let s := withRegs (wdcRegs 0x08);
      s.stopped = false ∧ s.parser.st = .wdc ∧ s.parser.crc ≠ 0x55 ∧ s.parser.ptc ∉ s.cfg.ptTable.map Prod.fst ∧
        s.cfg.spUnknownPt = .drop) ∧
    (let s := emitRawState (wdcRegs 0x08);
      s.stopped = false ∧ s.parser.st = .wdc ∧ s.parser.crc ≠ 0x55 ∧ s.parser.ptc ∉ s.cfg.ptTable.map Prod.fst ∧
        s.cfg.spUnknownPt = .emitRaw ∧
        s.parser.pbuf.length = s.parser.dlen.toNat + s.parser.olen.toNat ∧
        ∀ depth, s.cfg.outqDepth = some depth → s.parser.outq.length < depth) := by
  refine ⟨by decide, by decide, by decide, by decide, by decide, by decide, by decide, fun d h => ?_⟩
  cases h

/-- The selected transition and another one. -/
theorem witness_ExactlyTheSelectedTransitionRuns :
    (withRegs (wdcRegs 0x02)).stopped = false ∧
    RoomFor (withRegs (wdcRegs 0x02)) (processByte defaultConfig (wdcRegs 0x02) 0xB2) ∧
    transitionByte .wdcOk 0xB2 = 0xB2 ∧ (wdcRegs 0x02).selected 0xB2 = .wdcOk ∧
    transitionByte .wdcBad 0xB2 = 0xB2 ∧ (wdcRegs 0x02).selected 0xB2 ≠ .wdcBad := by decide

/-- A gap of exactly 100 ms, one of 99 ms, a time stamp that decreases, and a first read. -/
theorem witness_ReadAppliesGapRuleThenTransitions :
    (∃ t0, (Parser.tLast { whRegs with tLast := some 0 }) = some t0 ∧ 100000000 ≤ (100 - t0) * defaultConfig.timeUnitNs) ∧
    (∀ t0, (Parser.tLast { whRegs with tLast := some 0 }) = some t0 → (99 - t0) * defaultConfig.timeUnitNs < 100000000) ∧
    (∀ t0, (Parser.tLast { whRegs with tLast := some 500 }) = some t0 → (0 - t0) * defaultConfig.timeUnitNs < 100000000) ∧
    (∀ t0, Parser.reset.tLast = some t0 → (7 - t0) * defaultConfig.timeUnitNs < 100000000) ∧
    State.reset.stopped = false ∧
    RoomFor State.reset (g.foldl (processByte defaultConfig) Parser.reset) := by
  refine ⟨⟨0, by decide, by decide⟩, fun t h => ?_, fun t h => ?_, fun t h => ?_, by decide, by decide⟩
  · cases h; decide
  · cases h; decide
  · cases h

/-- V-SP-10 (b): in the middle of a header, the latest read at time 7. -/
def lateState : State := withRegs { whRegs with tLast := some 7 }

/-- Elapsed exactly 100 and 99 from a parser in the middle of a header, a time stamp that decreases, and a first read. -/
theorem witness_GapOfHundredMillisecondsForcesWaitSync :
    lateState.stopped = false ∧ lateState.cfg.timeUnitNs = 1000000 ∧ lateState.parser.tLast = some 7 ∧
    (7 + 100 ≤ 107 ∧
      RoomFor lateState ([0x02].foldl (processByte lateState.cfg) { lateState.parser with st := .ws })) ∧
    (106 < 7 + 100 ∧ 0 < 7 + 100 ∧ RoomFor lateState ([0x02].foldl (processByte lateState.cfg) lateState.parser)) ∧
    State.reset.stopped = false ∧ State.reset.cfg.timeUnitNs = 1000000 ∧ State.reset.parser.tLast = none ∧
    RoomFor State.reset (g.foldl (processByte State.reset.cfg) State.reset.parser) := by decide

theorem witness_ReadErrorOnlyReports : (withRegs whRegs).stopped = false := by decide

theorem witness_StopEndsTheRun :
    (withRegs (wdRegs 0x02)).stopped = false ∧ ({ withRegs (wdRegs 0x02) with stopped := true } : State).stopped = true := by
  decide

/-- Depth 0: the first Frame is one too many. Depth 1: it fits, and the premise fails. Then an unbounded queue. -/
theorem witness_FullQueueIsRefused :
    ((withDepth 0 Parser.reset).stopped = false ∧ (withDepth 0 Parser.reset).cfg.outqDepth = some 0 ∧
      (withDepth 0 Parser.reset).parser.outq.length <
        (readBytes (withDepth 0 Parser.reset).cfg 0 g Parser.reset).outq.length ∧
      0 < (readBytes (withDepth 0 Parser.reset).cfg 0 g Parser.reset).outq.length) ∧
    ¬ 1 < (readBytes (withDepth 1 Parser.reset).cfg 0 g Parser.reset).outq.length ∧
    State.reset.cfg.outqDepth = none := by decide

theorem witness_EventsKeepOutcomesAndQueueOrder :
    (∃ s', exec (.spRead 0 g) State.reset = .next s') ∧ oneShot (.spRead 0 g) = false ∧ Instr.spRead 0 g ≠ .spReset :=
  ⟨⟨_, rfl⟩, rfl, by decide⟩

/-- A state in the middle of a frame and of a read, an emitted and a taken Frame in it, a take waiting. -/
def midFrame : State :=
  { withRegs { wdcRegs 0x02 with outq := [gFrame] } with
    taken := [gFrame], reading := some ⟨7, [0xB2]⟩, inputs := [.take] }

theorem witness_StepKeepsInvariant : midFrame.Inv ∧ ∃ s', step midFrame = .next s' := by
  refine ⟨⟨⟨by decide, by simp [midFrame, withRegs, wdcRegs, wdRegs, dataLenMax, optLenMax], ?_⟩, ?_, ?_, by decide,
    by decide⟩, ⟨_, rfl⟩⟩
  · show (2 = 2 ∧ 1 ≤ 2 ∧ (0xB2 : Byte) = crcFold [0xAA, 0xBB])
    decide
  · intro f hf
    have h : f = gFrame := by simpa [midFrame, withRegs] using hf
    subst h
    decide
  · intro d h
    cases h

theorem witness_EmittedFramesArriveWhole :
    Parser.reset.st = .ws ∧
    (processBytes defaultConfig Parser.reset (g.dropLast ++ [0xB2])).outq =
      (processBytes defaultConfig Parser.reset g.dropLast).outq ++ [gFrame] ∧
    State.reset.cfg = defaultConfig ∧ defaultConfig.spUnknownPt = .drop := by decide

/-- G behind two bytes of garbage, cut into reads no gap separates, one of them empty (V-SP-11, P2). -/
def severalReads : List (Nat × ByteString) :=
  [(0, [0x00, 0x13]), (0, []), (99, [0x55, 0x00, 0x01, 0x01]), (198, [0x02, 0x70, 0xAA, 0xBB, 0xB2])]

/-- From WaitSync: garbage in an earlier read and in front of the Frame's first byte, a gap between the two (R332), the
rest of the Frame 99 ms later. From the middle of a header: a gap of 100 ms, and G in one read (V-SP-10 (d)). -/
theorem witness_FrameIsEmittedOnceInAnyChunking :
    (State.reset.stopped = false ∧ State.reset.cfg.outqDepth = none ∧ FrameEmittable State.reset.cfg gFrame ∧
      State.reset.parser.st = .ws ∧ gapElapsed State.reset.cfg (some 0) 500 = true ∧
      0x55 ∉ readBytesOf [(0, [0x00, 0x13]), (0, [])] ++ [0x07] ∧
      ([0x55, 0x00, 0x01, 0x01] : ByteString) ≠ [] ∧
      [0x55, 0x00, 0x01, 0x01] ++ readBytesOf [(599, [0x02, 0x70, 0xAA, 0xBB, 0xB2])] = frameBytes gFrame ∧
      gapFree State.reset.cfg (some 500) [(599, [0x02, 0x70, 0xAA, 0xBB, 0xB2])] = true) ∧
    (lateState.stopped = false ∧ lateState.cfg.outqDepth = none ∧ FrameEmittable lateState.cfg gFrame ∧
      gapElapsed lateState.cfg lateState.parser.tLast 107 = true ∧ 0x55 ∉ readBytesOf [] ++ ([] : ByteString) ∧
      g ≠ [] ∧ g ++ readBytesOf [] = frameBytes gFrame ∧ gapFree lateState.cfg (some 107) [] = true) := by decide

/-- The same bytes in several reads and in one. -/
theorem witness_ChunkingDoesNotMatter :
    gapFree State.reset.cfg State.reset.parser.tLast severalReads = true ∧
    gapFree State.reset.cfg State.reset.parser.tLast [(5, [0x00, 0x13] ++ g)] = true ∧
    readBytesOf severalReads = readBytesOf [(5, [0x00, 0x13] ++ g)] ∧
    (∃ s1, execAll (readInstrs severalReads) State.reset = .next s1) ∧
    (∃ s2, execAll (readInstrs [(5, [0x00, 0x13] ++ g)]) State.reset = .next s2) :=
  ⟨by decide, by decide, by decide, ⟨_, rfl⟩, ⟨_, rfl⟩⟩

/-- V-SP-2 and V-SP-3. -/
theorem witness_TwoKindsOfFrameAreNeverEmitted :
    State.reset.stopped = false ∧ State.reset.parser.st = .ws ∧
    (FrameWithinLimits ⟨0x02, [], []⟩ ∧ ([] : ByteString) ++ [] = []) ∧
    (FrameWithinLimits ⟨0x02, [0xC5], []⟩ ∧ crcFold ([0xC5] ++ []) = 0x55) ∧
    (0x02 : Byte) ∈ State.reset.cfg.ptTable.map Prod.fst := by decide

/-- The machine with `ERP1_STRICT_RORG`. -/
def strictState : State := { State.reset with cfg := { defaultConfig with erp1StrictRorg := true } }

/-- Each check failing in turn at its boundary, then the two clauses of the RORG check and its two ways to pass. -/
theorem witness_Erp1DecodeChecksThenSplits :
    (0x02 : Byte) ≠ 0x01 ∧
    ((0x01 : Byte) = 0x01 ∧ ([0x01, 0x02, 0x03, 0x04, 0x05] : ByteString).length < 6) ∧
    (6 ≤ ([0x01, 0x02, 0x03, 0x04, 0x05, 0x06] : ByteString).length ∧
      ([0x01, 0x02, 0x03, 0x04, 0x05, 0x06] : ByteString).length < 7) ∧
    (strictState.cfg.erp1StrictRorg = true ∧ (0x00 : Byte) ∉ strictState.cfg.rorgTable.map Prod.fst) ∧
    State.reset.cfg.erp1StrictRorg = false ∧ (0xD2 : Byte) ∈ strictState.cfg.rorgTable.map Prod.fst := by decide

/-- `user_data` at its limit. -/
theorem witness_Erp1EncodeWritesItsLayout :
    s8.userData.length ≤ 65529 ∧
    (Erp1Packet.userData { s8 with userData := List.replicate 65529 0x00 }).length ≤ 65529 := by
  simp only [List.length_replicate]; decide

theorem witness_Erp1SerializeIsSerializeOfEncode :
    exec (.erp1Encode s8) State.reset = .next (answered (.ok (.frame (erp1Frame s8)))) ∧
    exec (.erp1Encode { s8 with userData := List.replicate 65530 0x00 }) State.reset =
      .next (answered (.fault .lenLimit)) ∧
    s8.userData.length ≤ 65529 := by
  refine ⟨rfl, ?_, by decide⟩
  show answer _ _ = _
  rw [erp1Encode, if_pos (by simp only [List.length_replicate]; decide)]
  rfl

theorem witness_Erp1RoundTripReplacesTwoBytes :
    exec (.erp1Encode s8) State.reset = .next (answered (.ok (.frame (erp1Frame s8)))) ∧
    State.reset.cfg.erp1StrictRorg = false ∧ s8.rorg ∈ State.reset.cfg.rorgTable.map Prod.fst ∧
    exec (.erp1Decode s8Frame) State.reset = .next (answered (.ok (.packet s8))) := ⟨rfl, rfl, by decide, rfl⟩

theorem witness_OneShotOperationsReadAndWriteNoState :
    oneShot (.frameParse g) = true ∧ State.reset.cfg = defaultConfig := by decide

/-- The machine with the inputs `inputs`. -/
def awaiting (inputs : List Input) : State := { State.reset with inputs := inputs }

/-- Outside a read: a call, one over a finite IN_MAX, a code that selects nothing, the two takes, a bytewise read, an empty
one, one after a stop and no input. Inside a read: a byte, and the end. -/
theorem witness_StepRunsTheDecodedInstruction :
    decode (.op8 0x11 { Operands.zero with str := g }) = .ok (.crcFold g) ∧
    withinInMax defaultConfig (.crcFold g) = true ∧
    withinInMax { defaultConfig with inMax := some 9 } (.crcFold g) = true ∧
    withinInMax { defaultConfig with inMax := some 8 } (.crcFold g) = false ∧
    decode (.op8 0x12 Operands.zero) = .error (.badOp 0x12) ∧
    (∀ inputs, (awaiting inputs).reading = none ∧ (awaiting inputs).inputs = inputs ∧
      (awaiting inputs).cfg = defaultConfig ∧ (awaiting inputs).stopped = false ∧ (awaiting inputs).parser.outq = []) ∧
    ({ midFrame with reading := none }.inputs = .take :: [] ∧ midFrame.parser.outq = gFrame :: []) ∧
    ({ awaiting [.bytewiseRead 7 g] with stopped := true }.stopped = true) ∧
    midFrame.reading = some ⟨7, 0xB2 :: []⟩ ∧
    { midFrame with reading := some ⟨7, []⟩ }.reading = some ⟨7, []⟩ :=
  ⟨rfl, rfl, rfl, rfl, rfl, fun _ => ⟨rfl, rfl, rfl, rfl, rfl⟩, ⟨rfl, rfl⟩, rfl, rfl, rfl⟩

/-- G, an empty read, and a read after a stop. -/
theorem witness_BytewiseReadIsTheWholeRead :
    (awaiting [.bytewiseRead 0 g]).reading = none ∧ (awaiting [.bytewiseRead 0 g]).inputs = .bytewiseRead 0 g :: [] ∧
    (awaiting [.bytewiseRead 0 []]).inputs = .bytewiseRead 0 [] :: [] ∧
    { awaiting [.bytewiseRead 0 g] with stopped := true }.reading = none := ⟨rfl, rfl, rfl, rfl⟩

theorem witness_DecodeInvertsEncode :
    (Instr.spWdcOk 0xB2).wf = true ∧ decode (.spKey 0b101_100_10110010) = .ok (.spWdcOk 0xB2) := ⟨rfl, rfl⟩

end Sys2Proof.Tests
end

section
/-! PROOF. The machine: what the one-shot operations read and write. -/

namespace Sys2Proof.Machine

/-- What a one-shot operation answers (R12, R14). The operations of the code sets, the two parses of a frame and
ERP1.DECODE read the parameters; every other outcome is made of the operands alone. -/
theorem exec_oneShot {i : Instr} (cfg : Config) (h : oneShot i = true) :
    ∃ r : Reply Value, ∀ s : State, s.cfg = cfg → exec i s = answer s r := by
  cases i with
  | ptParseByte b => exact ⟨if ptKnown cfg b then .ok (.byte b) else .err .unknownCode, by rintro s rfl; rfl⟩
  | ptFormat v => exact ⟨.ok (.text (formatCode cfg.ptTable v)), by rintro s rfl; rfl⟩
  | rorgParseByte b => exact ⟨if rorgKnown cfg b then .ok (.byte b) else .err .unknownCode, by rintro s rfl; rfl⟩
  | rorgFormat v => exact ⟨.ok (.text (formatCode cfg.rorgTable v)), by rintro s rfl; rfl⟩
  | frameParse bytes => exact ⟨(frameParse cfg bytes).map .frame, by rintro s rfl; rfl⟩
  | frameParseHex str => exact ⟨(frameParseHex cfg str).map .frame, by rintro s rfl; rfl⟩
  | erp1Decode f => exact ⟨(erp1Decode cfg f).map .packet, by rintro s rfl; rfl⟩
  | crcStep | crcFold | didToBytes | didToString | didFromHex | didFromBytes | didBroadcast | didFromU32
  | frameSerialize | frameFromParts | frameSerializeHex | erp1Encode | erp1Serialize => exact ⟨_, fun _ _ => rfl⟩
  | spRead | spReadErr | spStop | spReset | spWsSync | spWsSkip | spWhAcc | spWhcOk | spWhcZeroSync | spWhcZero
  | spWhcResyncNone | spWhcResyncCur | spWhcResyncBuf | spWdAcc | spWdcSync | spWdcOk | spWdcBad => cases h

/-- Settles O56: the outcome is `exec_oneShot`'s, and answering writes it alone. -/
theorem oneShotOperationsReadAndWriteNoState : Obligations.OneShotOperationsReadAndWriteNoState :=
  fun _ cfg h => exec_oneShot cfg h

end Sys2Proof.Machine
end

section
/-! PROOF. The frame model: the wire format FRAME.SERIALIZE writes. -/

namespace Sys2Proof.Machine

/-- R83: the header's bytes. Within the limits the length fields cut nothing off. -/
theorem headerBytes_eq (f : Frame) (h : FrameWithinLimits f) : ∃ hi lo opt : Byte,
    hi.toNat * 256 + lo.toNat = f.data.length ∧ opt.toNat = f.optData.length ∧
      headerBytes f = [hi, lo, opt, f.packetType] := by
  obtain ⟨hd, ho⟩ := h
  rw [dataLenMax] at hd
  rw [optLenMax] at ho
  refine ⟨_, _, _, ?_, ?_, rfl⟩
  · rw [BitVec.toNat_ofNat, BitVec.toNat_ofNat, Nat.shiftRight_eq_div_pow]; omega
  · rw [BitVec.toNat_ofNat]; omega

/-- R182: within the limits FRAME.SERIALIZE completes with the bytes of the frame. -/
theorem exec_frameSerialize_of_limits (f : Frame) (s : State) (h : FrameWithinLimits f) :
    exec (.frameSerialize f) s = .next { s with result := some (.ok (.bytes (frameBytes f))) } := by
  have fits : frameSerialize f = .ok (frameBytes f) := if_pos ((fitsLimits_iff _ _).mpr h)
  show answer s ((frameSerialize f).map .bytes) = _
  rw [fits]; rfl

/-- Settles O16: within the limits the answer is `frameBytes`, and its header is `headerBytes_eq`'s. -/
theorem serializeWritesTheWireFormat : Obligations.SerializeWritesTheWireFormat := by
  intro f s h
  obtain ⟨hi, lo, opt, hdata, hopt, header⟩ := headerBytes_eq f h
  refine ⟨hi, lo, opt, hdata, hopt, ?_⟩
  rw [exec_frameSerialize_of_limits f s h, frameBytes, header]; rfl

end Sys2Proof.Machine
end

section
/-! PROOF. Unit U1, the checksum engine. -/

namespace Sys2Proof.Machine

/-- Rows of one length, read as one string: entry `n * r + c` is row `r`, column `c`. -/
theorem byteAt_flatten {n c : Nat} (hc : c < n) (rows : List ByteString) (h : ∀ row ∈ rows, row.length = n) (r : Nat) :
    byteAt rows.flatten (n * r + c) = byteAt (rows.getD r []) c := by
  induction rows generalizing r with
  | nil => simp [byteAt]
  | cons row rest ih =>
    obtain ⟨hrow, hrest⟩ := List.forall_mem_cons.mp h
    rw [List.flatten_cons]
    cases r with
    | zero => rw [byteAt_append_left _ _ _ (by omega), Nat.mul_zero, Nat.zero_add, List.getD_cons_zero]
    | succ r =>
      have skip : n * (r + 1) + c - row.length = n * r + c := by rw [hrow, Nat.mul_succ]; omega
      rw [byteAt_append_right _ _ _ (by rw [hrow, Nat.mul_succ]; omega), skip, ih hrest r, List.getD_cons_succ]

/-- R121: row and column address the table in ascending index order. -/
theorem tableRead_eq_flatten (i : Byte) : tableRead i = byteAt crcTable.flatten i.toNat := by
  have rows : ∀ row ∈ crcTable, row.length = 16 := by decide
  have col : i.toNat % 16 < 16 := Nat.mod_lt _ (by decide)
  rw [tableRead, ← byteAt_flatten col crcTable rows, Nat.div_add_mod]

theorem exec_crcStep (byte crc : Byte) (s : State) :
    exec (.crcStep byte crc) s = .next { s with result := some (.ok (.byte (tableRead (byte ^^^ crc)))) } := rfl

theorem exec_crcFold (bytes : ByteString) (s : State) :
    exec (.crcFold bytes) s = .next { s with result := some (.ok (.byte (crcFold bytes))) } := rfl

/-- Settles O1: the entry CRC.STEP reads by row and column is the flat table's, by `tableRead_eq_flatten`. -/
theorem crcStepReadsTheTable : Obligations.CrcStepReadsTheTable := by
  intro byte crc s
  rw [exec_crcStep, tableRead_eq_flatten]

/-- Settles O3: the checksum is `crcFold`, whose equations are `crcFold_nil` and `crcFold_concat`. -/
theorem foldAppliesStepFromZero : Obligations.FoldAppliesStepFromZero := by
  intro bytes s
  refine ⟨crcFold bytes, exec_crcFold bytes s, ?_, fun b => ?_⟩
  · rintro rfl; exact crcFold_nil
  · rw [exec_crcFold, crcFold_concat, crcStep]

end Sys2Proof.Machine
end

section
/-! PROOF. Hexadecimal text and big-endian strings: the numbers they spell (30_encoding.md R87, R95). -/

namespace Sys2Proof.Machine

/-- Every digit of R95 is lowercase. -/
theorem hexDigit_lowercase : ∀ v : BitVec 4,
    (48 ≤ (hexDigit v).toNat ∧ (hexDigit v).toNat ≤ 57) ∨ (97 ≤ (hexDigit v).toNat ∧ (hexDigit v).toNat ≤ 102) := by
  decide

@[simp] theorem hexVal_hexDigit : ∀ v : BitVec 4, hexVal (hexDigit v) = some v := by decide

theorem toNat_eq_nibbles (b : Byte) : b.toNat = (b.extractLsb' 4 4).toNat * 16 + (b.extractLsb' 0 4).toNat := by
  simp only [BitVec.extractLsb'_toNat, Nat.shiftRight_eq_div_pow]
  omega

theorem hexEnc_length (bs : ByteString) : (hexEnc bs).length = 2 * bs.length := by
  simp [hexEnc, List.length_flatMap, Nat.mul_comm]

theorem exists_hexDigit_of_mem_hexEnc {c : Byte} {bs : ByteString} (h : c ∈ hexEnc bs) : ∃ v, c = hexDigit v := by
  obtain ⟨b, -, hc⟩ := List.mem_flatMap.mp h
  obtain rfl | rfl := List.mem_pair.mp hc
  · exact ⟨_, rfl⟩
  · exact ⟨_, rfl⟩

/-- HEXENC keeps the number: the two digits of a byte multiply by 16 twice, as the byte multiplies by 256. -/
theorem hexNumber_hexEnc (bs : ByteString) : hexNumber (hexEnc bs) = bigEndian bs := by
  rw [hexNumber, hexEnc, List.foldl_flatMap, bigEndian]
  congr 1
  funext n b
  simp only [List.foldl_cons, List.foldl_nil, hexVal_hexDigit, Option.getD_some, toNat_eq_nibbles b]
  omega

/-- Left padding with zeros keeps the number. -/
theorem bigEndian_replicate_zero_append (n : Nat) (bs : ByteString) :
    bigEndian (List.replicate n 0 ++ bs) = bigEndian bs := by
  induction n with
  | zero => rfl
  | succ n ih => exact ih

theorem bigEndian_four (b0 b1 b2 b3 : Byte) : bigEndian [b0, b1, b2, b3] = (be32 b0 b1 b2 b3).toNat := by
  simp only [bigEndian, List.foldl_cons, List.foldl_nil, be32_toNat]
  omega

theorem be32_eq_bigEndian (b0 b1 b2 b3 : Byte) :
    be32 b0 b1 b2 b3 = BitVec.ofNat 32 (bigEndian [b0, b1, b2, b3]) := by
  rw [bigEndian_four, BitVec.ofNat_toNat, BitVec.setWidth_eq]

theorem wordAt_zero_of_length_four {bs : ByteString} (h : bs.length = 4) :
    wordAt bs 0 = BitVec.ofNat 32 (bigEndian bs) := by
  match bs, h with
  | [b0, b1, b2, b3], _ => exact be32_eq_bigEndian b0 b1 b2 b3

theorem wordBytes_length (id : Word) : (wordBytes id).length = 4 := rfl

/-- R87: the four bytes of an identifier spell it. -/
theorem bigEndian_wordBytes (id : Word) : bigEndian (wordBytes id) = id.toNat := by
  simp only [wordBytes, bigEndian_four, be32_toNat, BitVec.extractLsb'_toNat, Nat.shiftRight_eq_div_pow]
  omega

end Sys2Proof.Machine
end

section
/-! PROOF. Unit U2, the device-identifier codec. -/

namespace Sys2Proof.Machine

theorem exec_didToBytes (id : Word) (s : State) :
    exec (.didToBytes id) s = .next { s with result := some (.ok (.bytes (wordBytes id))) } := rfl

theorem exec_didToString (id : Word) (s : State) :
    exec (.didToString id) s = .next { s with result := some (.ok (.text (hexEnc (wordBytes id)))) } := rfl

theorem exec_didFromBytes (bytes : ByteString) (s : State) :
    exec (.didFromBytes bytes) s = .next { s with result := some ((didFromBytes bytes).map .ident) } := rfl

theorem exec_didFromU32 (n : Word) (s : State) :
    exec (.didFromU32 n) s = .next { s with result := some (.ok (.ident n)) } := rfl

theorem exec_didBroadcast (s : State) :
    exec .didBroadcast s = .next { s with result := some (.ok (.ident didBroadcastId)) } := rfl

theorem didFromBytes_of_long {bytes : ByteString} (h : 4 < bytes.length) :
    didFromBytes bytes = .err .invalidLength := if_pos h

/-- R143: the string padded to four bytes is read as a word, and padding keeps the number. -/
theorem didFromBytes_of_short {bytes : ByteString} (h : bytes.length ≤ 4) :
    didFromBytes bytes = .ok (BitVec.ofNat 32 (bigEndian bytes)) := by
  have padded : (List.replicate (4 - bytes.length) (0 : Byte) ++ bytes).length = 4 := by
    rw [List.length_append, List.length_replicate, Nat.sub_add_cancel h]
  rw [didFromBytes, if_neg (Nat.not_lt.mpr h), wordAt_zero_of_length_four padded, bigEndian_replicate_zero_append]

/-- Settles O7: the four bytes are `wordBytes`, which spell the identifier by `bigEndian_wordBytes`. -/
theorem identifierBytesAreBigEndian : Obligations.IdentifierBytesAreBigEndian := by
  intro id s
  refine ⟨⟨_, _, _, _, exec_didToBytes id s, ?_⟩, exec_didFromU32 id s, exec_didBroadcast s⟩
  rw [← be32_toNat, ← bigEndian_four]
  exact (bigEndian_wordBytes id).symm

/-- Settles O8: the text is HEXENC of the identifier's four bytes, so its digits spell what the bytes spell. -/
theorem identifierTextIsEightLowercaseDigits : Obligations.IdentifierTextIsEightLowercaseDigits := by
  intro id s
  refine ⟨hexEnc (wordBytes id), exec_didToString id s, ?_, fun c hc => ?_, ?_⟩
  · rw [hexEnc_length, wordBytes_length]
  · obtain ⟨v, rfl⟩ := exists_hexDigit_of_mem_hexEnc hc
    exact hexDigit_lowercase v
  · rw [hexNumber_hexEnc, bigEndian_wordBytes]

/-- Settles O9: the two cases of the length are `didFromBytes_of_long` and `didFromBytes_of_short`. -/
theorem fromBytesPadsOrRejects : Obligations.FromBytesPadsOrRejects := by
  intro bytes s
  refine ⟨fun long => ?_, fun short => ?_⟩
  · rw [exec_didFromBytes, didFromBytes_of_long long]; rfl
  · rw [exec_didFromBytes, didFromBytes_of_short short]; rfl

end Sys2Proof.Machine
end

section
/-! PROOF. Unit U3, the code enumerations. -/

namespace Sys2Proof.Machine

/-- The mnemonic a code has is that of a row of the table. -/
theorem mem_of_codeName {table : List (Byte × Text)} {c : Byte} {name : Text} (h : codeName table c = some name) :
    (c, name) ∈ table := by
  unfold codeName at h
  split at h
  next row found =>
    cases h
    have code : row.1 = c := by simpa using List.find?_some found
    exact code ▸ List.mem_of_find?_eq_some found
  next => cases h

/-- Where no code stands twice, a row of the table is the row of its code. -/
theorem codeName_of_mem {table : List (Byte × Text)} {c : Byte} {name : Text} (distinct : (table.map Prod.fst).Nodup)
    (h : (c, name) ∈ table) : codeName table c = some name := by
  have member : c ∈ table.map Prod.fst := List.mem_map_of_mem (f := Prod.fst) h
  obtain ⟨found, hfound⟩ := Option.isSome_iff_exists.mp ((codeName_isSome table c).mpr member)
  have same : (c, found) = (c, name) := List.inj_on_of_nodup_map distinct (mem_of_codeName hfound) h rfl
  rw [hfound, (Prod.mk.inj same).2]

theorem codeName_of_notMem {table : List (Byte × Text)} {c : Byte} (h : c ∉ table.map Prod.fst) :
    codeName table c = none := by
  rwa [← codeName_isSome, Option.not_isSome_iff_eq_none] at h

theorem formatCode_of_mem {table : List (Byte × Text)} {c : Byte} {name : Text}
    (distinct : (table.map Prod.fst).Nodup) (h : (c, name) ∈ table) : formatCode table c = name := by
  rw [formatCode, codeName_of_mem distinct h]

theorem formatCode_of_notMem {table : List (Byte × Text)} {c : Byte} (h : c ∉ table.map Prod.fst) :
    formatCode table c = text "UNKNOWN" := by
  rw [formatCode, codeName_of_notMem h]

theorem exec_ptFormat (v : Byte) (s : State) :
    exec (.ptFormat v) s = .next { s with result := some (.ok (.text (formatCode s.cfg.ptTable v))) } := rfl

theorem exec_rorgFormat (v : Byte) (s : State) :
    exec (.rorgFormat v) s = .next { s with result := some (.ok (.text (formatCode s.cfg.rorgTable v))) } := rfl

theorem exec_ptParseByte (b : Byte) (s : State) :
    exec (.ptParseByte b) s =
      .next { s with result := some (if ptKnown s.cfg b then .ok (.byte b) else .err .unknownCode) } := rfl

theorem exec_rorgParseByte (b : Byte) (s : State) :
    exec (.rorgParseByte b) s =
      .next { s with result := some (if rorgKnown s.cfg b then .ok (.byte b) else .err .unknownCode) } := rfl

/-- Settles O13: both operations answer `formatCode`, a member's mnemonic by `formatCode_of_mem` and the text UNKNOWN for
every other value by `formatCode_of_notMem`. -/
theorem formatGivesMnemonicOrUnknown : Obligations.FormatGivesMnemonicOrUnknown := by
  intro v name s ptDistinct rorgDistinct
  refine ⟨fun h => ?_, fun h => ?_, fun h => ?_, fun h => ?_⟩
  · rw [exec_ptFormat, formatCode_of_mem ptDistinct h]
  · rw [exec_ptFormat, formatCode_of_notMem h]
  · rw [exec_rorgFormat, formatCode_of_mem rorgDistinct h]
  · rw [exec_rorgFormat, formatCode_of_notMem h]

/-- Settles O12: the test of the byte is membership, by `ptKnown_iff` and `rorgKnown_iff`. -/
theorem parseByteIsStrict : Obligations.ParseByteIsStrict := by
  intro b s
  refine ⟨fun h => ?_, fun h => ?_, fun h => ?_, fun h => ?_⟩
  · rw [exec_ptParseByte, if_pos ((ptKnown_iff _ _).mpr h)]
  · rw [exec_ptParseByte, if_neg (mt (ptKnown_iff _ _).mp h)]
  · rw [exec_rorgParseByte, if_pos ((rorgKnown_iff _ _).mpr h)]
  · rw [exec_rorgParseByte, if_neg (mt (rorgKnown_iff _ _).mp h)]

end Sys2Proof.Machine
end

section
/-! PROOF. Unit U4, the one-shot frame parser: the order of the checks of FRAME.PARSE. -/

namespace Sys2Proof.Machine

theorem exec_frameParse (w : ByteString) (s : State) :
    exec (.frameParse w) s = .next { s with result := some ((frameParse s.cfg w).map .frame) } := rfl

theorem frameParse_of_short (cfg : Config) {w : ByteString} (h : w.length < 7) : frameParse cfg w = .err .tooShort :=
  if_pos h

theorem ptKnown_eq_false_iff (cfg : Config) (c : Byte) : ptKnown cfg c = false ↔ c ∉ cfg.ptTable.map Prod.fst := by
  rw [← ptKnown_iff, Bool.not_eq_true]

/-- Settles O18: below 7 bytes the answer is `frameParse_of_short`'s; above, each clause takes the branch of
`frameParse_parts` at its failing check, behind the checks that pass. -/
theorem frameParseFirstFailingCheckDecides : Obligations.FrameParseFirstFailingCheckDecides := by
  refine ⟨fun w s short => ?_, fun b0 b1 b2 b3 b4 b5 c payload s => ?_⟩
  · rw [exec_frameParse, frameParse_of_short s.cfg short]; rfl
  simp only [exec_frameParse, frameParse_parts, ptKnown_eq_false_iff, sync]
  refine ⟨fun noSync => ?_, fun hsync badHeader => ?_, fun hsync header unknown => ?_,
    fun hsync header known badPayload => ?_, fun hsync header known hpayload fits => ?_⟩
  · rw [if_pos noSync]; rfl
  all_goals rw [if_neg (not_not_intro hsync)]
  · rw [if_pos badHeader]; rfl
  all_goals rw [if_neg (not_not_intro header)]
  · rw [if_pos unknown]; rfl
  all_goals rw [if_neg (not_not_intro known)]
  · rw [if_pos badPayload]; rfl
  · rw [if_neg (not_not_intro hpayload), if_neg (Nat.not_lt.mpr fits)]; rfl

end Sys2Proof.Machine
end

section
/-! PROOF. Unit U5, the stream parser: which transition a byte selects, and what executing it answers. -/

namespace Sys2Proof.Machine

/-! ## The selected transition, R99, one equation for each state -/

section
variable {p : Parser} {b : Byte}

theorem selected_of_ws (h : p.st = .ws) : p.selected b = if b = 0x55 then .wsSync else .wsSkip := by
  rw [Parser.selected, h, selectTransition, sync]

theorem selected_of_wh (h : p.st = .wh) : p.selected b = .whAcc := by
  rw [Parser.selected, h, selectTransition]

theorem selected_of_whc (h : p.st = .whc) :
    p.selected b =
      if b = p.crc then
        if p.headerTotal = 0 then (if b = 0x55 then .whcZeroSync else .whcZero) else .whcOk
      else if 0x55 ∈ p.hbuf then .whcResyncBuf
      else if b = 0x55 then .whcResyncCur
      else .whcResyncNone := by
  rw [Parser.selected, h, selectTransition]
  simp only [Parser.conds, beq_iff_eq, sync, List.contains_iff_mem]
  congr -- the sides decide membership by different instances

theorem selected_of_wd (h : p.st = .wd) : p.selected b = .wdAcc := by
  rw [Parser.selected, h, selectTransition]

theorem selected_of_wdc (h : p.st = .wdc) :
    p.selected b = if b = 0x55 then .wdcSync else if b = p.crc then .wdcOk else .wdcBad := by
  rw [Parser.selected, h, selectTransition]
  simp only [Parser.conds, beq_iff_eq, sync]

end

/-! ## Executing the selected transition -/

theorem exec_transition (tr : Transition) (b : Byte) (s : State) :
    exec (tr.instr b) s = runTransition tr (transitionByte tr b) s := by
  cases tr <;> rfl

/-- A selected transition with room for what it emits completes with its effect. -/
theorem exec_of_selected (tr : Transition) (b : Byte) {s : State} (running : s.stopped = false)
    (sel : s.parser.selected (transitionByte tr b) = tr)
    (room : overfull s.cfg s.parser (transitionEffect s.cfg tr (transitionByte tr b) s.parser) = false) :
    exec (tr.instr b) s =
      .next { s with parser := transitionEffect s.cfg tr (transitionByte tr b) s.parser } := by
  rw [exec_transition]
  exact runTransition_eq running sel room

/-- Only SP.WDC.OK emits: every other selected transition completes. -/
theorem exec_of_selected_silent (tr : Transition) (b : Byte) {s : State} (running : s.stopped = false)
    (sel : s.parser.selected (transitionByte tr b) = tr) (silent : tr ≠ .wdcOk) :
    exec (tr.instr b) s =
      .next { s with parser := transitionEffect s.cfg tr (transitionByte tr b) s.parser } :=
  exec_of_selected tr b running sel (overfull_of_same (transitionEffect_outq _ _ _ _ silent))

/-! ## The effects on the registers, in the states that select them -/

/-- R215, R66: the two length fields of four buffered bytes, added without wrapping. -/
theorem headerTotal_of (p : Parser) {h0 h1 h2 h3 : Byte} (h : p.hbuf = [h0, h1, h2, h3]) :
    p.headerTotal = h0.toNat * 256 + h1.toNat + h2.toNat := by
  rw [Parser.headerTotal, headerDataLen_of p h, headerOptLen_of p h, be16_toNat]

theorem headerTotal_eq_zero_iff (p : Parser) {h0 h1 h2 h3 : Byte} (h : p.hbuf = [h0, h1, h2, h3]) :
    p.headerTotal = 0 ↔ h0 = 0 ∧ h1 = 0 ∧ h2 = 0 := by
  rw [headerTotal_of p h, ← BitVec.toNat_inj, ← BitVec.toNat_inj, ← BitVec.toNat_inj]
  simp only [BitVec.ofNat_eq_ofNat, BitVec.toNat_ofNat]
  omega

theorem whAcc_of_wh {p : Parser} (b : Byte) (h : p.st = .wh) :
    whAcc b p = { p with
      hbuf := p.hbuf ++ [b]
      crc := tableRead (b ^^^ p.crc)
      st := if p.hbuf.length = 3 then .whc else .wh } := by
  simp [whAcc, crcStep, h]

theorem whcOk_of_header {p : Parser} {h0 h1 h2 h3 : Byte} (h : p.hbuf = [h0, h1, h2, h3]) :
    whcOk p = { p with
      dlen := BitVec.ofNat 16 (h0.toNat * 256 + h1.toNat)
      olen := h2
      ptc := h3
      pbuf := []
      crc := 0x00
      st := .wd } := by
  rw [whcOk, headerDataLen_of p h, headerOptLen_of p h, headerPacketType_of p h, ← be16_toNat, BitVec.ofNat_toNat,
    BitVec.setWidth_eq]

theorem whcZero_of_header {p : Parser} {h0 h1 h2 h3 : Byte} (h : p.hbuf = [h0, h1, h2, h3]) :
    whcZero p = { p with dlen := 0, olen := 0, ptc := h3, st := .ws } := by
  rw [whcZero, headerPacketType_of p h]

theorem wdAcc_of_wd {p : Parser} (b : Byte) (h : p.st = .wd) :
    wdAcc b p = { p with
      pbuf := p.pbuf ++ [b]
      crc := tableRead (b ^^^ p.crc)
      st := if p.pbuf.length + 1 = p.dlen.toNat + p.olen.toNat then .wdc else .wd } := by
  simp [wdAcc, crcStep, Parser.payloadTotal, h]

/-- R229: where SP.WDC.OK emits, it emits the two parts of a full payload buffer. -/
theorem wdcOk_of_emits {cfg : Config} {p : Parser} (full : p.pbuf.length = p.dlen.toNat + p.olen.toNat)
    (h : emits cfg p.ptc = true) :
    wdcOk cfg p = { p with
      outq := p.outq ++ [⟨p.ptc, p.pbuf.take p.dlen.toNat, p.pbuf.drop p.dlen.toNat⟩]
      st := .ws } := by
  rw [wdcOk, if_pos h, Parser.emit, payloadFrame_eq p full]

theorem emits_of_known {cfg : Config} {ptc : Byte} (h : ptc ∈ cfg.ptTable.map Prod.fst) : emits cfg ptc = true := by
  rw [emits, (ptKnown_iff cfg ptc).mpr h, Bool.true_or]

/-- R32: a queue below its depth has room for one Frame more. -/
theorem overfull_eq_false_of_append_one {cfg : Config} {p q : Parser} {f : Frame} (h : q.outq = p.outq ++ [f])
    (room : ∀ depth, cfg.outqDepth = some depth → p.outq.length < depth) : overfull cfg p q = false := by
  refine overfull_eq_false.mpr fun depth finite _ => ?_
  rw [h, List.length_append]
  exact room depth finite

end Sys2Proof.Machine
end

section
/-! PROOF. Unit U5, the stream parser: what its transitions, and a read error, do to the whole state. -/

namespace Sys2Proof.Machine

/-- Settles O23: in WS the byte 0x55 selects SP.WS.SYNC. -/
theorem wsSyncOpensAHeader : Obligations.WsSyncOpensAHeader := by
  intro s running st
  have sel : s.parser.selected sync = .wsSync := by rw [selected_of_ws st, sync, if_pos rfl]
  exact exec_of_selected_silent .wsSync sync running sel (by decide)

/-- Settles O24: in WS any byte but 0x55 selects SP.WS.SKIP, whose effect is the registers as they are. -/
theorem wsSkipWritesNothing : Obligations.WsSkipWritesNothing := by
  intro b s running st noSync
  have sel : s.parser.selected b = .wsSkip := by rw [selected_of_ws st, if_neg noSync]
  exact exec_of_selected_silent .wsSkip b running sel (by decide)

/-- Settles O25: the effect is `whAcc_of_wh`'s. -/
theorem whAccBuffersAndFolds : Obligations.WhAccBuffersAndFolds := by
  intro b s running st
  rw [← whAcc_of_wh b st]
  exact exec_of_selected_silent .whAcc b running (selected_of_wh st) (by decide)

/-- Settles O26: a length byte other than 0 makes the total other than 0, and the effect is `whcOk_of_header`'s. -/
theorem whcOkLatchesTheHeader : Obligations.WhcOkLatchesTheHeader := by
  intro h0 h1 h2 h3 s running st header nonzero
  have total : s.parser.headerTotal ≠ 0 := by
    rw [Ne, headerTotal_eq_zero_iff s.parser header]
    tauto
  have sel : s.parser.selected s.parser.crc = .whcOk := by rw [selected_of_whc st, if_pos rfl, if_neg total]
  rw [← whcOk_of_header header]
  exact exec_of_selected_silent .whcOk s.parser.crc running sel (by decide)

/-- Settles O28: three zero length bytes make the total 0, and the effect is `whcZero_of_header`'s. -/
theorem whcZeroDropsTheFrame : Obligations.WhcZeroDropsTheFrame := by
  intro h3 s running st header noSync
  have total : s.parser.headerTotal = 0 := (headerTotal_eq_zero_iff s.parser header).mpr ⟨rfl, rfl, rfl⟩
  have sel : s.parser.selected s.parser.crc = .whcZero := by
    rw [selected_of_whc st, if_pos rfl, if_pos total, if_neg noSync]
  rw [← whcZero_of_header header]
  exact exec_of_selected_silent .whcZero s.parser.crc running sel (by decide)

/-- Settles O29: a wrong checksum byte with no 0x55 to resume at selects SP.WHC.RESYNC_NONE. -/
theorem whcResyncNoneDiscards : Obligations.WhcResyncNoneDiscards := by
  intro b s running st mismatch notBuffered noSync
  have sel : s.parser.selected b = .whcResyncNone := by
    rw [selected_of_whc st, if_neg mismatch, if_neg notBuffered, if_neg noSync]
  exact exec_of_selected_silent .whcResyncNone b running sel (by decide)

/-- Settles O32: the effect is `wdAcc_of_wd`'s. -/
theorem wdAccBuffersAndFolds : Obligations.WdAccBuffersAndFolds := by
  intro b s running st
  rw [← wdAcc_of_wd b st]
  exact exec_of_selected_silent .wdAcc b running (selected_of_wd st) (by decide)

/-- Settles O34: a known packet type emits, the Frame is `wdcOk_of_emits`'s, and the queue has room for it. -/
theorem wdcOkEmitsTheFrame : Obligations.WdcOkEmitsTheFrame := by
  intro s running st noSync full known room
  have effect := wdcOk_of_emits full (emits_of_known known)
  have sel : s.parser.selected s.parser.crc = .wdcOk := by rw [selected_of_wdc st, if_neg noSync, if_pos rfl]
  have fits := overfull_eq_false_of_append_one (congrArg Parser.outq effect) room
  rw [← effect]
  exact exec_of_selected .wdcOk s.parser.crc running sel fits

/-- Settles O35: in WDC a byte neither 0x55 nor `crc` selects SP.WDC.BAD. -/
theorem wdcBadDropsTheFrame : Obligations.WdcBadDropsTheFrame := by
  intro b s running st noSync mismatch
  have sel : s.parser.selected b = .wdcBad := by rw [selected_of_wdc st, if_neg noSync, if_neg mismatch]
  exact exec_of_selected_silent .wdcBad b running sel (by decide)

theorem exec_spReadErr (t : Nat) (info : Text) (s : State) :
    exec (.spReadErr t info) s = if s.stopped then .refused .afterStop else .next (s.addReport info) := rfl

/-- Settles O41: a running parser takes the branch that adds the report. -/
theorem readErrorOnlyReports : Obligations.ReadErrorOnlyReports := by
  intro t info s running
  rw [exec_spReadErr, if_neg (Bool.eq_false_iff.mp running)]
  rfl

end Sys2Proof.Machine
end

section
/-! PROOF. Unit U6, the ERP1 packet codec: what ERP1.ENCODE and ERP1.SERIALIZE answer. -/

namespace Sys2Proof.Machine

theorem exec_erp1Encode (p : Erp1Packet) (s : State) :
    exec (.erp1Encode p) s = .next { s with result := some ((erp1Encode p).map .frame) } := rfl

theorem exec_erp1Serialize (p : Erp1Packet) (s : State) :
    exec (.erp1Serialize p) s = .next { s with result := some ((erp1Serialize p).map .bytes) } := rfl

theorem erp1Encode_of_fits {p : Erp1Packet} (h : p.userData.length ≤ userDataMax) :
    erp1Encode p = .ok (erp1Frame p) := if_neg (Nat.not_lt.mpr h)

theorem erp1Encode_of_long {p : Erp1Packet} (h : userDataMax < p.userData.length) :
    erp1Encode p = .fault .lenLimit := if_pos h

/-- R264: ERP1.ENCODE answers a frame exactly within its limit, and then the frame of R263. -/
theorem exec_erp1Encode_frame_iff (p : Erp1Packet) (f : Frame) (s : State) :
    exec (.erp1Encode p) s = .next { s with result := some (.ok (.frame f)) } ↔
      p.userData.length ≤ userDataMax ∧ f = erp1Frame p := by
  rw [exec_erp1Encode]
  obtain long | fits := Nat.lt_or_ge userDataMax p.userData.length
  · rw [erp1Encode_of_long long]; simp [Reply.map, Nat.not_le.mpr long]
  · rw [erp1Encode_of_fits fits]; simp [Reply.map, fits, eq_comm]

/-- R264: ERP1.ENCODE answers the fault exactly beyond its limit. -/
theorem exec_erp1Encode_fault_iff (p : Erp1Packet) (s : State) :
    exec (.erp1Encode p) s = .next { s with result := some (.fault .lenLimit) } ↔
      userDataMax < p.userData.length := by
  rw [exec_erp1Encode]
  obtain long | fits := Nat.lt_or_ge userDataMax p.userData.length
  · rw [erp1Encode_of_long long]; simp [Reply.map, long]
  · rw [erp1Encode_of_fits fits]; simp [Reply.map, Nat.not_lt.mpr fits]

/-- R263: six bytes of data and seven of optional data are added to `user_data`. -/
theorem erp1Frame_data_length (p : Erp1Packet) : (erp1Frame p).data.length = p.userData.length + 6 := by
  simp [erp1Frame, wordBytes_length]

theorem erp1Frame_optData_length (p : Erp1Packet) : (erp1Frame p).optData.length = 7 := rfl

/-- R264: the limit on `user_data` is the data limit less the six bytes. -/
theorem erp1Frame_withinLimits {p : Erp1Packet} (h : p.userData.length ≤ userDataMax) :
    FrameWithinLimits (erp1Frame p) := by
  rw [FrameWithinLimits, erp1Frame_data_length, erp1Frame_optData_length]
  exact ⟨Nat.add_le_add_right h 6, by decide⟩

/-- R265: within the limit ERP1.SERIALIZE completes with the bytes of the frame ERP1.ENCODE answers. -/
theorem exec_erp1Serialize_of_fits {p : Erp1Packet} (s : State) (h : p.userData.length ≤ userDataMax) :
    exec (.erp1Serialize p) s = .next { s with result := some (.ok (.bytes (frameBytes (erp1Frame p)))) } := by
  rw [← exec_frameSerialize_of_limits _ s (erp1Frame_withinLimits h), exec_erp1Serialize, erp1Serialize,
    erp1Encode_of_fits h]
  rfl

/-- R265: the fault of ERP1.ENCODE reaches the caller of ERP1.SERIALIZE. -/
theorem exec_erp1Serialize_of_long {p : Erp1Packet} (s : State) (h : userDataMax < p.userData.length) :
    exec (.erp1Serialize p) s = .next { s with result := some (.fault .lenLimit) } := by
  rw [exec_erp1Serialize, erp1Serialize, erp1Encode_of_long h]
  rfl

/-- Settles O53: within the limit the answer is `erp1Frame`, whose identifiers are `wordBytes`, as DID.TO_BYTES answers
them. -/
theorem erp1EncodeWritesItsLayout : Obligations.Erp1EncodeWritesItsLayout := by
  intro p s fits
  exact ⟨_, _, exec_didToBytes p.senderId s, exec_didToBytes p.destinationId s,
    (exec_erp1Encode_frame_iff p (erp1Frame p) s).mpr ⟨fits, rfl⟩⟩

/-- Settles O54: what ERP1.ENCODE answers tells on which side of the limit `user_data` is, and on each side the
answer of ERP1.SERIALIZE is known. -/
theorem erp1SerializeIsSerializeOfEncode : Obligations.Erp1SerializeIsSerializeOfEncode := by
  intro p s
  refine ⟨fun f encoded => ?_, fun faulted => ?_, fun fits => ⟨_, exec_erp1Serialize_of_fits s fits⟩⟩
  · obtain ⟨fits, rfl⟩ := (exec_erp1Encode_frame_iff p f s).mp encoded
    refine ⟨frameBytes (erp1Frame p), ?_, exec_frameSerialize_of_limits _ s (erp1Frame_withinLimits fits),
      exec_erp1Serialize_of_fits s fits⟩
    rw [frameBytes_length, erp1Frame_data_length, erp1Frame_optData_length]
    omega
  · exact exec_erp1Serialize_of_long s ((exec_erp1Encode_fault_iff p s).mp faulted)

end Sys2Proof.Machine
end

section
/-! PROOF. Unit U6, the ERP1 packet codec: the checks and the record of ERP1.DECODE. -/

namespace Sys2Proof.Machine

theorem exec_erp1Decode (f : Frame) (s : State) :
    exec (.erp1Decode f) s = .next { s with result := some ((erp1Decode s.cfg f).map .packet) } := rfl

/-! ## The checks, R261, R262 -/

section
variable (cfg : Config) {f : Frame}

theorem erp1Decode_of_otherType (h : f.packetType ≠ ptRadioErp1) :
    erp1Decode cfg f = .err .wrongPacketType := if_pos h

theorem erp1Decode_of_shortData (type : f.packetType = ptRadioErp1) (h : f.data.length < 6) :
    erp1Decode cfg f = .err .dataTooShort := by
  rw [erp1Decode, if_neg (not_not_intro type), if_pos h]

theorem erp1Decode_of_shortOptData (type : f.packetType = ptRadioErp1) (data : 6 ≤ f.data.length)
    (h : f.optData.length < 7) : erp1Decode cfg f = .err .optDataTooShort := by
  rw [erp1Decode, if_neg (not_not_intro type), if_neg (Nat.not_lt.mpr data), if_pos h]

/-- A frame of the right type that holds the two layouts fails at most the RORG check. -/
theorem erp1Decode_of_lengths (type : f.packetType = ptRadioErp1) (data : 6 ≤ f.data.length)
    (opt : 7 ≤ f.optData.length) : erp1Decode cfg f =
      if cfg.erp1StrictRorg = true ∧ byteAt f.data 0 ∉ cfg.rorgTable.map Prod.fst then .err .unknownCode
      else .ok (erp1Fields f) := by
  rw [erp1Decode, if_neg (not_not_intro type), if_neg (Nat.not_lt.mpr data), if_neg (Nat.not_lt.mpr opt)]
  simp only [Bool.and_eq_true, Bool.not_eq_true', ← Bool.not_eq_true, rorgKnown_iff]

end

/-! ## The record, R89, R90 -/

theorem byteAt_append_add (pre post : ByteString) (i : Nat) :
    byteAt (pre ++ post) (pre.length + i) = byteAt post i := by
  rw [byteAt_append_right _ _ _ (Nat.le_add_right _ _), Nat.add_sub_cancel_left]

theorem wordAt_append_length (pre post : ByteString) : wordAt (pre ++ post) pre.length = wordAt post 0 := by
  simp only [wordAt, byteAt_append_add]
  rw [← Nat.add_zero pre.length, byteAt_append_add]

/-- The fields of data and optional data in the two layouts; what follows the seven optional bytes is not read. -/
theorem erp1Fields_layout (pt rorg a0 a1 a2 a3 status sub d0 d1 d2 d3 rssi sec : Byte) (user more : ByteString) :
    erp1Fields ⟨pt, [rorg] ++ user ++ [a0, a1, a2, a3, status], [sub, d0, d1, d2, d3, rssi, sec] ++ more⟩ =
      { destinationId := be32 d0 d1 d2 d3, senderId := be32 a0 a1 a2 a3, rorg := rorg, rssi := rssi,
        securityLevel := sec, status := status, subTelNum := sub, userData := user } := by
  have total : ([rorg] ++ user ++ [a0, a1, a2, a3, status]).length = ([rorg] ++ user).length + 5 := List.length_append
  have sender := wordAt_append_length ([rorg] ++ user) [a0, a1, a2, a3, status]
  have last := byteAt_append_add ([rorg] ++ user) [a0, a1, a2, a3, status] 4
  have middle := slice_append [rorg] user [a0, a1, a2, a3, status] 1 ([rorg] ++ user).length rfl List.length_append
  simp only [erp1Fields, total, Nat.add_sub_cancel, Nat.reduceSubDiff, sender, last, middle]
  rfl

/-- Settles O52: a frame that fails one of the three checks answers by the lemma of that check; for a frame of the two
layouts the RORG check remains, and the record is `erp1Fields_layout`'s. -/
theorem erp1DecodeChecksThenSplits : Obligations.Erp1DecodeChecksThenSplits := by
  refine ⟨fun f s => ⟨fun other => ?_, fun type short => ?_, fun type data short => ?_⟩,
    fun rorg a0 a1 a2 a3 status sub d0 d1 d2 d3 rssi sec user more s => ?_⟩
  · rw [exec_erp1Decode, erp1Decode_of_otherType s.cfg other]; rfl
  · rw [exec_erp1Decode, erp1Decode_of_shortData s.cfg type short]; rfl
  · rw [exec_erp1Decode, erp1Decode_of_shortOptData s.cfg type data short]; rfl
  intro f
  have data : 6 ≤ f.data.length := by simp [f]
  have opt : 7 ≤ f.optData.length := by simp [f]
  have first : byteAt f.data 0 = rorg := rfl
  rw [exec_erp1Decode, erp1Decode_of_lengths s.cfg rfl data opt, first]
  refine ⟨fun strict unknown => ?_, fun accepted => ?_⟩
  · rw [if_pos ⟨strict, unknown⟩]; rfl
  · have passes : ¬ (s.cfg.erp1StrictRorg = true ∧ rorg ∉ s.cfg.rorgTable.map Prod.fst) := by
      rwa [not_and_or, not_not, Bool.not_eq_true]
    rw [if_neg passes, erp1Fields_layout, be32_eq_bigEndian, be32_eq_bigEndian]; rfl

end Sys2Proof.Machine
end

section
/-! PROOF. Unit U4, the frame model: a serialized frame determines its Frame, and FRAME.PARSE gives it back. -/

namespace Sys2Proof.Machine

theorem exec_frameFromParts (pt : Byte) (data optData : ByteString) (s : State) :
    exec (.frameFromParts pt data optData) s =
      .next { s with result := some ((frameFromParts pt data optData).map .frame) } := rfl

theorem exec_frameSerialize (f : Frame) (s : State) :
    exec (.frameSerialize f) s = .next { s with result := some ((frameSerialize f).map .bytes) } := rfl

theorem exec_frameSerializeHex (f : Frame) (s : State) :
    exec (.frameSerializeHex f) s = .next { s with result := some ((frameSerializeHex f).map .text) } := rfl

theorem frameSerialize_of_limits {f : Frame} (h : FrameWithinLimits f) : frameSerialize f = .ok (frameBytes f) :=
  if_pos ((fitsLimits_iff _ _).mpr h)

/-- R181: the two length tests, failed. -/
theorem fitsLimits_eq_false_of_long {data optData : ByteString} (h : 65535 < data.length ∨ 255 < optData.length) :
    ¬ fitsLimits data optData = true := by
  rw [fitsLimits_iff, dataLenMax, optLenMax]
  omega

theorem frameSerialize_of_long {f : Frame} (h : 65535 < f.data.length ∨ 255 < f.optData.length) :
    frameSerialize f = .fault .lenLimit := if_neg (fitsLimits_eq_false_of_long h)

/-- R182: FRAME.SERIALIZE answers bytes exactly within the limits, and then those of the frame. -/
theorem exec_frameSerialize_bytes_iff (f : Frame) (w : ByteString) (s : State) :
    exec (.frameSerialize f) s = .next { s with result := some (.ok (.bytes w)) } ↔
      FrameWithinLimits f ∧ w = frameBytes f := by
  rw [exec_frameSerialize, frameSerialize]
  split
  next fits =>
    rw [and_iff_right ((fitsLimits_iff _ _).mp fits)]
    simp [Reply.map, eq_comm]
  next long =>
    rw [fitsLimits_iff] at long
    simp [Reply.map, long]

/-- R80: six header bytes, the payload and its checksum; within the limits the header gives both lengths. -/
theorem frameBytes_eq {f : Frame} (h : FrameWithinLimits f) : ∃ hi lo opt : Byte,
    hi.toNat * 256 + lo.toNat = f.data.length ∧ opt.toNat = f.optData.length ∧
      frameBytes f = [sync, hi, lo, opt, f.packetType, crcFold [hi, lo, opt, f.packetType]] ++
        (f.data ++ f.optData) ++ [crcFold (f.data ++ f.optData)] := by
  obtain ⟨hi, lo, opt, hdata, hopt, header⟩ := headerBytes_eq f h
  refine ⟨hi, lo, opt, hdata, hopt, ?_⟩
  rw [frameBytes, header, List.append_assoc _ f.data]
  rfl

/-- R185: every check passes on a serialized frame, and the header's `data_len` cuts the payload where it was joined. -/
theorem frameParse_frameBytes {cfg : Config} {f : Frame} (h : FrameWithinLimits f)
    (known : f.packetType ∈ cfg.ptTable.map Prod.fst) : frameParse cfg (frameBytes f) = .ok f := by
  obtain ⟨hi, lo, opt, hdata, -, bytes⟩ := frameBytes_eq h
  have cut : ¬ f.data.length > (f.data ++ f.optData).length := by rw [List.length_append]; omega
  rw [bytes, frameParse_parts, hdata, (ptKnown_iff cfg _).mpr known, if_neg (not_not_intro rfl),
    if_neg (not_not_intro rfl), if_neg Bool.noConfusion, if_neg (not_not_intro rfl), if_neg cut,
    List.take_left, List.drop_left]

theorem exec_frameParse_frameBytes {f : Frame} {s : State} (h : FrameWithinLimits f)
    (known : f.packetType ∈ s.cfg.ptTable.map Prod.fst) :
    exec (.frameParse (frameBytes f)) s = .next { s with result := some (.ok (.frame f)) } := by
  rw [exec_frameParse, frameParse_frameBytes h known]
  rfl

/-- Settles O21: within the limits FRAME.SERIALIZE answers `frameBytes`, and `frameParse_frameBytes` parses it. -/
theorem frameParseInvertsSerialize : Obligations.FrameParseInvertsSerialize := by
  intro f s limits known
  exact ⟨frameBytes f, exec_frameSerialize_of_limits f s limits, frameBytes_length f,
    exec_frameParse_frameBytes limits known⟩

/-- Equal bytes have equal headers, so equal data lengths, and payloads of equal length cut at the same place. -/
theorem frameBytes_injective {f g : Frame} (hf : FrameWithinLimits f) (hg : FrameWithinLimits g)
    (h : frameBytes f = frameBytes g) : f = g := by
  obtain ⟨hi, lo, opt, fdata, -, fbytes⟩ := frameBytes_eq hf
  obtain ⟨hi', lo', opt', gdata, -, gbytes⟩ := frameBytes_eq hg
  rw [fbytes, gbytes] at h
  obtain ⟨whole, -⟩ := List.append_inj' h rfl
  obtain ⟨header, payload⟩ := List.append_inj whole rfl
  simp only [List.cons.injEq, true_and] at header
  obtain ⟨rfl, rfl, -, type, -⟩ := header
  obtain ⟨data, optData⟩ := List.append_inj payload (fdata.symm.trans gdata)
  cases f
  cases g
  simp_all

/-- Settles O22: both Frames are within the limits and have the answer as their bytes, by
`exec_frameSerialize_bytes_iff`. -/
theorem serializeIsInjective : Obligations.SerializeIsInjective := by
  intro f g w s hf hg
  obtain ⟨flimits, fbytes⟩ := (exec_frameSerialize_bytes_iff f w s).mp hf
  obtain ⟨glimits, gbytes⟩ := (exec_frameSerialize_bytes_iff g w s).mp hg
  exact frameBytes_injective flimits glimits (fbytes.symm.trans gbytes)

/-- Settles O15: within the limits the length test passes. -/
theorem fromPartsKeepsItsParts : Obligations.FromPartsKeepsItsParts := by
  intro pt data optData s hdata hopt
  rw [exec_frameFromParts, frameFromParts, if_pos ((fitsLimits_iff _ _).mpr ⟨hdata, hopt⟩)]
  rfl

/-- Settles O17: the length test fails for the frame's three operations, and `user_data` over its limit is the case of
`exec_erp1Encode_fault_iff` and `exec_erp1Serialize_of_long`. -/
theorem overLongLengthsAreFaults : Obligations.OverLongLengthsAreFaults := by
  refine fun f p s => ⟨fun long => ⟨?_, ?_, ?_⟩, fun long => ⟨?_, exec_erp1Serialize_of_long s long⟩⟩
  · rw [exec_frameFromParts, frameFromParts, if_neg (fitsLimits_eq_false_of_long long)]; rfl
  · rw [exec_frameSerialize, frameSerialize_of_long long]; rfl
  · rw [exec_frameSerializeHex, frameSerializeHex, frameSerialize_of_long long]; rfl
  · exact (exec_erp1Encode_fault_iff p s).mpr long

/-- Settles O19: the four checks pass, and the last branch of `frameParse_parts` is the fault. -/
theorem frameParseMissingSliceIsAFault : Obligations.FrameParseMissingSliceIsAFault := by
  intro b1 b2 b3 b4 payload s known missing
  rw [exec_frameParse, frameParse_parts, (ptKnown_iff _ _).mpr known,
    if_neg (not_not_intro (show (0x55 : Byte) = sync from rfl)), if_neg (not_not_intro rfl), if_neg Bool.noConfusion,
    if_neg (not_not_intro rfl), if_pos missing]
  rfl

end Sys2Proof.Machine
end

section
/-! PROOF. Unit U5, the stream parser: every byte and every read keeps R230's invariant and an emittable
queue. -/

namespace Sys2Proof.Machine

/-! ## What one byte does, one equation for each state (R211) -/

section
variable (cfg : Config) {p : Parser} (b : Byte)

theorem processByte_of_ws (h : p.st = .ws) : processByte cfg p b = if b = 0x55 then p.restart else p := by
  rw [processByte, selected_of_ws h]
  split <;> rfl

theorem processByte_of_wh (h : p.st = .wh) : processByte cfg p b = whAcc b p := by
  rw [processByte, selected_of_wh h]
  rfl

theorem processByte_of_whc (h : p.st = .whc) :
    processByte cfg p b =
      if b = p.crc then
        if p.headerTotal = 0 then (if b = 0x55 then whcZeroSync p else whcZero p) else whcOk p
      else if 0x55 ∈ p.hbuf then whcResyncBuf b p
      else if b = 0x55 then p.restart
      else { p with st := .ws } := by
  rw [processByte, selected_of_whc h]
  split_ifs <;> rfl

theorem processByte_of_wd (h : p.st = .wd) : processByte cfg p b = wdAcc b p := by
  rw [processByte, selected_of_wd h]
  rfl

theorem processByte_of_wdc (h : p.st = .wdc) :
    processByte cfg p b =
      if b = 0x55 then p.restart else if b = p.crc then wdcOk cfg p else { p with st := .ws } := by
  rw [processByte, selected_of_wdc h]
  split_ifs <;> rfl

end

/-! ## R230's invariant -/

/-- The fields that hold the two lengths bound their sum (R26, R30). -/
theorem Parser.payloadTotal_le (p : Parser) : p.payloadTotal ≤ dataLenMax + optLenMax := by
  have hd := p.dlen.isLt
  have ho := p.olen.isLt
  simp only [Parser.payloadTotal, dataLenMax, optLenMax]
  omega

theorem Parser.StateInv.of_ws {p : Parser} (st : p.st = .ws) : p.StateInv := by
  rw [Parser.StateInv, st]
  trivial

theorem Parser.stateInv_restart (p : Parser) : p.restart.StateInv := ⟨Nat.zero_le 3, rfl⟩

section
variable {p : Parser} (b : Byte)

theorem Parser.StateInv.whAcc (inv : p.StateInv) (st : p.st = .wh) : (whAcc b p).StateInv := by
  rw [Parser.StateInv, st] at inv
  obtain ⟨fill, crc⟩ := inv
  have folded : crcStep b p.crc = crcFold (p.hbuf ++ [b]) := by rw [crcFold_concat, crc]
  have length : (p.hbuf ++ [b]).length = p.hbuf.length + 1 := List.length_append
  by_cases full : (p.hbuf ++ [b]).length = 4
  · simp only [Parser.StateInv, Machine.whAcc, if_pos full]
    exact ⟨full, folded⟩
  · simp only [Parser.StateInv, Machine.whAcc, if_neg full, st]
    exact ⟨by omega, folded⟩

/-- R222's table: no more than four bytes are kept, and four only in WHC. -/
theorem Parser.stateInv_whcResyncBuf (full : p.hbuf.length = 4) (buffered : sync ∈ p.hbuf) :
    (whcResyncBuf b p).StateInv := by
  obtain ⟨length, -⟩ := keptHeader_length b full buffered
  by_cases whole : (keptHeader p.hbuf b).length = 4
  · simp only [Parser.StateInv, whcResyncBuf, if_pos whole]
    exact ⟨whole, trivial⟩
  · simp only [Parser.StateInv, whcResyncBuf, if_neg whole]
    exact ⟨by omega, trivial⟩

theorem Parser.StateInv.wdAcc (inv : p.StateInv) (st : p.st = .wd) : (wdAcc b p).StateInv := by
  rw [Parser.StateInv, st] at inv
  obtain ⟨fill, crc⟩ := inv
  have folded : crcStep b p.crc = crcFold (p.pbuf ++ [b]) := by rw [crcFold_concat, crc]
  have length : (p.pbuf ++ [b]).length = p.pbuf.length + 1 := List.length_append
  by_cases full : (p.pbuf ++ [b]).length = p.payloadTotal
  · simp only [Parser.StateInv, Machine.wdAcc, if_pos full]
    exact ⟨full, show 1 ≤ p.payloadTotal by omega, folded⟩
  · simp only [Parser.StateInv, Machine.wdAcc, if_neg full, st]
    exact ⟨show _ < p.payloadTotal by omega, folded⟩

/-- Every transition keeps the rows of R230's table. -/
theorem Parser.StateInv.processByte (cfg : Config) (inv : p.StateInv) : (processByte cfg p b).StateInv := by
  cases st : p.st with
  | ws => rw [processByte_of_ws cfg b st]; split; exacts [p.stateInv_restart, inv]
  | wh => rw [processByte_of_wh cfg b st]; exact inv.whAcc b st
  | whc =>
    have full := inv
    rw [Parser.StateInv, st] at full
    rw [processByte_of_whc cfg b st]
    split_ifs with _ total _ buffered _
    · exact p.stateInv_restart
    · exact .of_ws rfl
    · exact ⟨Nat.pos_of_ne_zero total, rfl⟩
    · exact p.stateInv_whcResyncBuf b full.1 buffered
    · exact p.stateInv_restart
    · exact .of_ws rfl
  | wd => rw [processByte_of_wd cfg b st]; exact inv.wdAcc b st
  | wdc => rw [processByte_of_wdc cfg b st]; split_ifs; exacts [p.stateInv_restart, .of_ws rfl, .of_ws rfl]

theorem wdcOk_hbuf (cfg : Config) (p : Parser) : (wdcOk cfg p).hbuf = p.hbuf := by
  rw [wdcOk]
  split <;> rfl

theorem wdcOk_pbuf (cfg : Config) (p : Parser) : (wdcOk cfg p).pbuf = p.pbuf := by
  rw [wdcOk]
  split <;> rfl

/-- A byte that writes the header buffer leaves a state whose row bounds it. -/
theorem processByte_hbuf (cfg : Config) : (processByte cfg p b).hbuf = p.hbuf ∨
    (processByte cfg p b).st = .wh ∨ (processByte cfg p b).st = .whc := by
  cases st : p.st with
  | ws => rw [processByte_of_ws cfg b st]; split; exacts [.inr (.inl rfl), .inl rfl]
  | wh =>
    rw [processByte_of_wh cfg b st, whAcc, st]
    exact .inr (ite_eq_or_eq _ _ _).symm
  | whc =>
    rw [processByte_of_whc cfg b st]
    split_ifs
    exacts [.inr (.inl rfl), .inl rfl, .inl rfl, .inr (ite_eq_or_eq _ _ _).symm, .inr (.inl rfl), .inl rfl]
  | wd => rw [processByte_of_wd cfg b st]; exact .inl rfl
  | wdc =>
    rw [processByte_of_wdc cfg b st]
    split_ifs
    exacts [.inr (.inl rfl), .inl (wdcOk_hbuf cfg p), .inl rfl]

/-- A byte that writes the payload buffer leaves a state whose row bounds it. -/
theorem processByte_pbuf (cfg : Config) : (processByte cfg p b).pbuf = p.pbuf ∨
    (processByte cfg p b).st = .wd ∨ (processByte cfg p b).st = .wdc := by
  cases st : p.st with
  | ws => rw [processByte_of_ws cfg b st]; split; exacts [.inl rfl, .inl rfl]
  | wh => rw [processByte_of_wh cfg b st]; exact .inl rfl
  | whc =>
    rw [processByte_of_whc cfg b st]
    split_ifs
    exacts [.inl rfl, .inl rfl, .inr (.inl rfl), .inl rfl, .inl rfl, .inl rfl]
  | wd =>
    rw [processByte_of_wd cfg b st, wdAcc, st]
    exact .inr (ite_eq_or_eq _ _ _).symm
  | wdc =>
    rw [processByte_of_wdc cfg b st]
    split_ifs
    exacts [.inl rfl, .inl (wdcOk_pbuf cfg p), .inl rfl]

/-- A buffer that a byte has written is bounded by the row of the state it leads to. -/
theorem Parser.Inv.processByte (cfg : Config) (inv : p.Inv) : (processByte cfg p b).Inv := by
  have perState := inv.perState.processByte b cfg
  refine ⟨?_, ?_, perState⟩
  · obtain same | st | st := processByte_hbuf (p := p) b cfg
    · exact same ▸ inv.hbufFits
    all_goals rw [Parser.StateInv, st] at perState; omega
  · have bound := (Machine.processByte cfg p b).payloadTotal_le
    obtain same | st | st := processByte_pbuf (p := p) b cfg
    · exact same ▸ inv.pbufFits
    all_goals rw [Parser.StateInv, st] at perState; omega

end

/-! ## The Frames a byte emits -/

/-- R227: a byte leaves the queue as it is, or it is the payload checksum that emits the payload buffer's Frame. -/
theorem processByte_outq (cfg : Config) (p : Parser) (b : Byte) :
    (processByte cfg p b).outq = p.outq ∨
      (p.st = .wdc ∧ b ≠ sync ∧ b = p.crc ∧ emits cfg p.ptc = true ∧
        (processByte cfg p b).outq = p.outq ++ [p.payloadFrame]) := by
  by_cases sel : p.selected b = .wdcOk
  · have effect : (processByte cfg p b).outq = (wdcOk cfg p).outq := by rw [processByte, sel]; rfl
    rw [effect, wdcOk_outq]
    split
    next emitted =>
      cases st : p.st with
      | wdc =>
        rw [selected_of_wdc st] at sel
        split_ifs at sel with noSync crc
        exact .inr ⟨rfl, noSync, crc, emitted, rfl⟩
      | ws => rw [selected_of_ws st] at sel; split_ifs at sel
      | wh => rw [selected_of_wh st] at sel; cases sel
      | whc => rw [selected_of_whc st] at sel; split_ifs at sel
      | wd => rw [selected_of_wd st] at sel; cases sel
    next => exact .inl rfl
  · exact .inl (transitionEffect_outq cfg _ b p sel)

/-- In WDC the payload buffer holds a whole payload, so its Frame is one that may be emitted (R240). -/
theorem Parser.StateInv.payloadFrame_emittable {cfg : Config} {p : Parser} (perState : p.StateInv) (st : p.st = .wdc)
    (noSync : p.crc ≠ sync) (emitted : emits cfg p.ptc = true) : FrameEmittable cfg p.payloadFrame := by
  rw [Parser.StateInv, st] at perState
  obtain ⟨full, nonempty, crc⟩ := perState
  have hd := p.dlen.isLt
  have ho := p.olen.isLt
  rw [payloadFrame_eq p full]
  rw [Parser.payloadTotal] at full nonempty
  refine ⟨⟨?_, ?_⟩, ?_, ?_, emitted⟩
  · rw [List.length_take, dataLenMax]; omega
  · rw [List.length_drop, optLenMax]; omega
  · rw [← List.length_append, List.take_append_drop, full]; exact nonempty
  · rwa [List.take_append_drop, ← crc]

/-- R230, and R240 for the Frames waiting: what every byte and every read keeps of the registers. -/
structure Parser.Sound (cfg : Config) (p : Parser) : Prop where
  inv : p.Inv
  frames : ∀ f ∈ p.outq, FrameEmittable cfg f

section
variable {cfg : Config} {p : Parser}

theorem Parser.Sound.processByte (b : Byte) (sound : p.Sound cfg) : (processByte cfg p b).Sound cfg := by
  refine ⟨sound.inv.processByte b cfg, fun f hf => ?_⟩
  obtain same | ⟨st, noSync, crc, emitted, appended⟩ := processByte_outq cfg p b
  · exact sound.frames f (same ▸ hf)
  · rw [appended, List.mem_append, List.mem_singleton] at hf
    obtain old | rfl := hf
    · exact sound.frames f old
    · exact sound.inv.perState.payloadFrame_emittable st (crc ▸ noSync) emitted

theorem Parser.Sound.processBytes (bytes : ByteString) (sound : p.Sound cfg) :
    (processBytes cfg p bytes).Sound cfg := by
  induction bytes generalizing p with
  | nil => exact sound
  | cons b bytes ih => exact ih (sound.processByte b)

theorem Parser.Sound.gapForce (t : Nat) (sound : p.Sound cfg) : (gapForce cfg t p).Sound cfg := by
  rw [Machine.gapForce]
  split
  · exact ⟨⟨sound.inv.hbufFits, sound.inv.pbufFits, trivial⟩, sound.frames⟩
  · exact sound

theorem Parser.Sound.stamp (t : Nat) (sound : p.Sound cfg) : (p.stamp t).Sound cfg :=
  ⟨⟨sound.inv.hbufFits, sound.inv.pbufFits, sound.inv.perState⟩, sound.frames⟩

theorem Parser.Sound.readBytes (t : Nat) (bytes : ByteString) (sound : p.Sound cfg) :
    (readBytes cfg t bytes p).Sound cfg := by
  by_cases h : bytes = []
  · rwa [h, readBytes_nil]
  · rw [readBytes_of_ne cfg t p h]
    exact ((sound.gapForce t).processBytes bytes).stamp t

theorem Parser.sound_reset : Parser.reset.Sound cfg :=
  ⟨⟨Nat.zero_le _, Nat.zero_le _, trivial⟩, List.forall_mem_nil _⟩

end

end Sys2Proof.Machine
end

section
/-! PROOF. The decoder: the fields of a selection word, what each kind of selection decodes to, and the round trip
(30_encoding.md section 7). -/

namespace Sys2Proof

/-- A selection word bit by bit (R99, log 3): eight bits of byte, three of state code, then the conditions. -/
theorem getLsbD_keyWord (st : PState) (b : Byte) (c : Conds) (i : Nat) :
    (keyWord st b c).getLsbD i =
      if i < 8 then b.getLsbD i
      else if i - 8 < 3 then st.code.getLsbD (i - 8)
      else if i - 8 - 3 < 1 then (BitVec.ofBool c.crcMatch).getLsbD (i - 8 - 3)
      else if i - 8 - 3 - 1 < 1 then (BitVec.ofBool c.lenZero).getLsbD (i - 8 - 3 - 1)
      else (BitVec.ofBool c.syncBuffered).getLsbD (i - 8 - 3 - 1 - 1) := by
  simp only [← BitVec.getLsbD_append]
  rfl

theorem keyByte_keyWord (st : PState) (b : Byte) (c : Conds) : keyByte (keyWord st b c) = b := by
  apply BitVec.eq_of_getLsbD_eq
  intro i hi
  rw [keyByte, BitVec.getLsbD_extractLsb', getLsbD_keyWord]
  simp [hi]

theorem keyStateCode_keyWord (st : PState) (b : Byte) (c : Conds) : keyStateCode (keyWord st b c) = st.code := by
  apply BitVec.eq_of_getLsbD_eq
  intro i hi
  rw [keyStateCode, BitVec.getLsbD_extractLsb', getLsbD_keyWord]
  simp [hi]

theorem keyConds_keyWord (st : PState) (b : Byte) (c : Conds) : keyConds (keyWord st b c) = c := by
  rw [keyConds, getLsbD_keyWord, getLsbD_keyWord, getLsbD_keyWord]
  simp

theorem ofCode_code (st : PState) : PState.ofCode st.code = some st := by
  cases st <;> rfl

/-- R99: the selection word of a state, a byte and conditions decodes to the transition they select. -/
theorem decode_keyWord (st : PState) (b : Byte) (c : Conds) :
    decode (.spKey (keyWord st b c)) = .ok ((selectTransition st b c).instr b) := by
  rw [decode, decodeKey, keyStateCode_keyWord, ofCode_code, keyByte_keyWord, keyConds_keyWord]

/-- What R98's codes select: the one-shot operations and the four events, no transition. -/
inductive IsCall : Instr → Prop where
  | oneShot {i : Instr} (h : Machine.oneShot i = true) : IsCall i
  | read (t : Nat) (bytes : ByteString) : IsCall (.spRead t bytes)
  | readErr (t : Nat) (info : Text) : IsCall (.spReadErr t info)
  | stop : IsCall .spStop
  | reset : IsCall .spReset

/-- One row of R98's table. -/
theorem isCall_of_ite {c : Prop} [Decidable c] {row i : Instr} {more : Except DecodeError Instr} (hrow : IsCall row)
    (hmore : more = .ok i → IsCall i) (h : (if c then .ok row else more) = .ok i) : IsCall i := by
  split at h
  · cases h; exact hrow
  · exact hmore h

theorem isCall_of_decodeOp {op : Byte} {x : Operands} {i : Instr} : decodeOp op x = .ok i → IsCall i := by
  unfold decodeOp
  iterate 17 refine isCall_of_ite (.oneShot rfl) ?_
  refine isCall_of_ite (.read _ _) (isCall_of_ite (.readErr _ _) (isCall_of_ite .stop (isCall_of_ite .reset ?_)))
  iterate 3 refine isCall_of_ite (.oneShot rfl) ?_
  intro h
  cases h

theorem IsCall.wf {i : Instr} (h : IsCall i) : i.wf = true := by
  cases h with
  | oneShot h =>
    cases i with
    | spWsSkip | spWhcZero | spWhcResyncNone | spWdcOk | spWdcBad => cases h
    | _ => rfl
  | read | readErr | stop | reset => rfl

/-- R99: a transition that its row gives to every byte but 0x55 is selected for no 0x55. -/
theorem wf_selectTransition (st : PState) (b : Byte) (c : Conds) : ((selectTransition st b c).instr b).wf = true := by
  cases st with
  | wh | wd => rfl
  | ws | whc | wdc =>
    simp only [selectTransition]
    split_ifs <;> simp_all [Transition.instr, Instr.wf]

theorem wf_of_decode {sel : Selection} {i : Instr} (h : decode sel = .ok i) : i.wf = true := by
  cases sel with
  | op8 op x => exact (isCall_of_decodeOp h).wf
  | spKey word =>
    rw [decode, decodeKey] at h
    split at h
    · cases h
      exact wf_selectTransition ..
    · cases h

/-- R98, R99: the encoder writes the select code of the operation, or the key and the conditions of the transition. -/
theorem decode_encode {i : Instr} (h : i.wf = true) : decode (encode i) = .ok i := by
  cases i with
  | spWsSync | spWsSkip | spWhAcc | spWhcOk | spWhcZeroSync | spWhcZero | spWhcResyncNone | spWhcResyncCur
  | spWhcResyncBuf | spWdAcc | spWdcSync | spWdcOk | spWdcBad =>
    rw [encode, decode_keyWord]
    simp_all [selectTransition, Transition.instr, Instr.wf]
  | _ => rfl

/-- Settles O58: `decode_encode`, whose premise every decoded instruction meets by `wf_of_decode`. -/
theorem decodeInvertsEncode : Obligations.DecodeInvertsEncode :=
  ⟨fun _ wf => decode_encode wf, fun _ _ decoded => ⟨wf_of_decode decoded, decode_encode (wf_of_decode decoded)⟩⟩

/-- Settles O59: each word is evaluated. -/
theorem tableWordsDecode : Obligations.TableWordsDecode := by
  unfold Obligations.TableWordsDecode
  decide

end Sys2Proof
end

section
/-! PROOF. The machine: one step is one execution of what is presented, and keeps the machine's invariant. -/

namespace Sys2Proof.Machine

/-! ## What is presented: a call, or the byte of a read -/

theorem decode_parserSelection (p : Parser) (b : Byte) :
    decode (parserSelection p b) = .ok ((p.selected b).instr b) := decode_keyWord ..

/-- Events and transitions have no string that IN_MAX bounds (log 13). -/
theorem withinInMax_transition (cfg : Config) (tr : Transition) (b : Byte) : withinInMax cfg (tr.instr b) = true := by
  rw [withinInMax]
  split
  · rfl
  · cases tr <;> rfl

/-- R99: where a key fixes the byte to 0x55, the byte that selects the transition is 0x55. -/
theorem transitionByte_selected (p : Parser) (b : Byte) : transitionByte (p.selected b) b = b := by
  cases st : p.st with
  | ws => rw [selected_of_ws st]; split_ifs with h; exacts [h.symm, rfl]
  | wh => rw [selected_of_wh st]; rfl
  | whc => rw [selected_of_whc st]; split_ifs with _ _ h _ h; exacts [h.symm, rfl, rfl, rfl, h.symm, rfl]
  | wd => rw [selected_of_wd st]; rfl
  | wdc => rw [selected_of_wdc st]; split_ifs with h; exacts [h.symm, rfl, rfl]

/-- R211: the selected transition, executed, is one byte processed. -/
theorem exec_selected (s : State) (b : Byte) :
    exec ((s.parser.selected b).instr b) s = commit s (processByte s.cfg s.parser b) := by
  rw [exec_transition, transitionByte_selected, runTransition, if_pos rfl, ← processByte, commit]
  split <;> rfl

theorem step_of_reading_nil {s : State} {t : Nat} (h : s.reading = some ⟨t, []⟩) : step s = .next (closeRead t s) := by
  simp only [step, fetch, h, fetchReading]

/-- R99: inside a read a step executes the transition that the registers and the next byte select. -/
theorem step_of_reading_cons {s : State} {t : Nat} {b : Byte} {bytes : ByteString}
    (h : s.reading = some ⟨t, b :: bytes⟩) :
    step s = exec ((s.parser.selected b).instr b) (s.putReading (some ⟨t, bytes⟩)) := by
  simp only [step, fetch, h, fetchReading, fetchSelection, decode_parserSelection, withinInMax_transition, if_true]

theorem step_of_take {s : State} {rest : List Input} (hr : s.reading = none) (hi : s.inputs = .take :: rest) :
    step s = .next (consumerTake { s with inputs := rest }) := by
  simp only [step, fetch, hr, fetchInput, hi]

theorem step_of_bytewiseRead {s : State} {t : Nat} {bytes : ByteString} {rest : List Input} (hr : s.reading = none)
    (hi : s.inputs = .bytewiseRead t bytes :: rest) :
    step s = if s.stopped then .refused .afterStop else .next (openRead t bytes { s with inputs := rest }) := by
  simp only [step, fetch, hr, fetchInput, hi]
  split_ifs <;> rfl

theorem step_of_call {s : State} {op : Byte} {ports : Operands} {i : Instr} {rest : List Input} (hr : s.reading = none)
    (hi : s.inputs = .call op ports :: rest) (hd : decode (.op8 op ports) = .ok i) :
    step s = if withinInMax s.cfg i then exec i { s with inputs := rest } else .refused .operandTooLong := by
  simp only [step, fetch, hr, fetchInput, hi, fetchSelection, hd]
  split_ifs <;> rfl

theorem step_of_call_error {s : State} {op : Byte} {ports : Operands} {e : DecodeError} {rest : List Input}
    (hr : s.reading = none) (hi : s.inputs = .call op ports :: rest) (hd : decode (.op8 op ports) = .error e) :
    step s = .refused (.unselectable e) := by
  simp only [step, fetch, hr, fetchInput, hi, fetchSelection, hd]

theorem step_of_idle {s : State} (hr : s.reading = none) (hi : s.inputs = []) : step s = .next s := by
  simp only [step, fetch, hr, fetchInput, hi]

/-- Settles O57: a clause for each equation of `step`. -/
theorem stepRunsTheDecodedInstruction : Obligations.StepRunsTheDecodedInstruction := by
  refine fun s rest => ⟨fun hr => ⟨?_, ?_, ?_, ?_, ?_, ?_, ?_, ?_, step_of_idle hr⟩, ?_, ?_⟩
  · intro op ports i hi hd within
    rw [step_of_call hr hi hd, if_pos within]
  · intro op ports i hi hd long
    rw [step_of_call hr hi hd, if_neg (Bool.eq_false_iff.mp long)]
  · intro op ports e hi hd
    exact step_of_call_error hr hi hd
  · intro f more hi queue
    rw [step_of_take hr hi]
    simp only [consumerTake, queue]
  · intro hi queue
    rw [step_of_take hr hi]
    simp only [consumerTake, queue]
  · intro t b bytes hi running
    rw [step_of_bytewiseRead hr hi, if_neg (Bool.eq_false_iff.mp running),
      openRead_of_ne _ _ (List.cons_ne_nil b bytes)]
    rfl
  · intro t hi running
    rw [step_of_bytewiseRead hr hi, if_neg (Bool.eq_false_iff.mp running), openRead_nil]
  · intro t bytes hi stopped
    rw [step_of_bytewiseRead hr hi, if_pos stopped]
  · intro t b bytes hr
    exact step_of_reading_cons hr
  · intro t hr
    rw [step_of_reading_nil hr, closeRead]
    rfl

/-! ## The machine's invariant -/

/-- The invariant says nothing of the interface fields but `taken`. -/
theorem State.Inv.of_same {s s' : State} (inv : s.Inv) (cfg : s'.cfg = s.cfg) (parser : s'.parser = s.parser)
    (stopped : s'.stopped = s.stopped) (reading : s'.reading = s.reading) (taken : s'.taken = s.taken) : s'.Inv where
  parser := parser ▸ inv.parser
  frames := by rw [taken, parser, cfg]; exact inv.frames
  depth := by rw [cfg, parser]; exact inv.depth
  firstByte := by rw [reading, parser]; exact inv.firstByte
  stopped := by rw [stopped, reading]; exact inv.stopped

theorem State.Inv.sound {s : State} (inv : s.Inv) : s.parser.Sound s.cfg :=
  ⟨inv.parser, fun f hf => inv.frames f (List.mem_append_right _ hf)⟩

/-- Registers that are sound and fit the queue keep the invariant, if they meet its clause on WaitSync. -/
theorem State.Inv.putParser {s : State} {p : Parser} (inv : s.Inv) (sound : p.Sound s.cfg)
    (room : overfull s.cfg s.parser p = false) (firstByte : s.reading = none → p.tLast = none → p.st = .ws) :
    (s.putParser p).Inv where
  parser := sound.inv
  frames := by
    intro f hf
    obtain taken | waiting := List.mem_append.mp hf
    · exact inv.frames f (List.mem_append_left _ taken)
    · exact sound.frames f waiting
  depth := by
    intro d finite
    obtain grown | same := Nat.lt_or_ge s.parser.outq.length p.outq.length
    · exact overfull_eq_false.mp room d finite grown
    · exact same.trans (inv.depth d finite)
  firstByte := firstByte
  stopped := inv.stopped

/-- R230: a read leaves sound registers, and a non-empty one its time stamp. -/
theorem State.Inv.read {s : State} {t : Nat} {bytes : ByteString} (inv : s.Inv)
    (room : overfull s.cfg s.parser (readBytes s.cfg t bytes s.parser) = false) :
    (s.putParser (readBytes s.cfg t bytes s.parser)).Inv := by
  refine inv.putParser (inv.sound.readBytes t bytes) room fun hr none => ?_
  by_cases h : bytes = []
  · subst h
    rw [readBytes_nil] at none ⊢
    exact inv.firstByte hr none
  · rw [readBytes_of_ne _ _ _ h] at none
    cases none

theorem State.Inv.reset {s : State} (inv : s.Inv) : ((s.putParser Parser.reset).putStopped false).Inv where
  parser := (Parser.sound_reset (cfg := s.cfg)).inv
  frames := fun f hf => inv.frames f (List.mem_append_left _ (by simpa [Parser.reset] using hf))
  depth := fun _ _ => Nat.zero_le _
  firstByte := fun _ _ => rfl
  stopped := Bool.noConfusion

/-- A call outside a read keeps the invariant: it answers, reads, reports, stops or resets. -/
theorem State.Inv.call {s s' : State} {i : Instr} (inv : s.Inv) (outside : s.reading = none) (call : IsCall i)
    (h : exec i s = .next s') : s'.Inv := by
  cases call with
  | oneShot once =>
    obtain ⟨r, answers⟩ := exec_oneShot s.cfg once
    rw [answers s rfl] at h
    cases h
    exact inv.of_same rfl rfl rfl rfl rfl
  | read t bytes =>
    obtain ⟨-, room, rfl⟩ := commit_next.mp h
    exact inv.read room
  | readErr t info =>
    rw [exec_spReadErr] at h
    split at h <;> cases h
    exact inv.of_same rfl rfl rfl rfl rfl
  | stop =>
    simp only [exec, execSpStop] at h
    split at h <;> cases h
    exact ⟨inv.parser, inv.frames, inv.depth, inv.firstByte, fun _ => outside⟩
  | reset =>
    cases h
    exact inv.reset

/-- R32: a take shortens the queue, and the Frame goes to the consumer. -/
theorem State.Inv.take {s : State} (inv : s.Inv) : (consumerTake s).Inv := by
  have frames := consumerTake_frames s
  rw [consumerTake] at frames ⊢
  split
  next => exact inv
  next f rest queue =>
    rw [queue] at frames
    refine ⟨⟨inv.parser.hbufFits, inv.parser.pbufFits, inv.parser.perState⟩, ?_, fun d finite => ?_, inv.firstByte,
      inv.stopped⟩
    · have := inv.frames
      simpa [queue] using this
    · have before := inv.depth d finite
      rw [queue, List.length_cons] at before
      exact Nat.le_of_succ_le before

/-- R233: the begin of a read is its gap test, on a run that has not stopped. -/
theorem State.Inv.openRead {s : State} (t : Nat) (bytes : ByteString) (inv : s.Inv) (running : s.stopped = false) :
    (openRead t bytes s).Inv := by
  by_cases h : bytes = []
  · rwa [h, openRead_nil]
  · rw [openRead_of_ne t s h]
    have sound := inv.sound.gapForce t
    refine ⟨sound.inv, ?_, ?_, nofun, fun stopped => ?_⟩
    · exact (gapForce_outq s.cfg t s.parser).symm ▸ inv.frames
    · exact (gapForce_outq s.cfg t s.parser).symm ▸ inv.depth
    · exact absurd (running.symm.trans stopped) Bool.noConfusion

/-- Inside a read the byte that is next is processed, and the read goes on. -/
theorem State.Inv.processByte {s s' : State} {t : Nat} {b : Byte} {bytes : ByteString} (inv : s.Inv)
    (hr : s.reading = some ⟨t, b :: bytes⟩)
    (h : exec ((s.parser.selected b).instr b) (s.putReading (some ⟨t, bytes⟩)) = .next s') : s'.Inv := by
  have running : s.stopped = false := Bool.eq_false_iff.mpr fun stopped => by simp [inv.stopped stopped] at hr
  have going : (s.putReading (some ⟨t, bytes⟩)).Inv :=
    ⟨inv.parser, inv.frames, inv.depth, nofun, fun stopped => absurd (running.symm.trans stopped) Bool.noConfusion⟩
  have effect := exec_selected (s.putReading (some ⟨t, bytes⟩)) b
  obtain ⟨-, room, rfl⟩ := commit_next.mp (effect.symm.trans h)
  exact going.putParser (going.sound.processByte b) room nofun

theorem State.Inv.closeRead {s : State} {t : Nat} (inv : s.Inv) : (closeRead t s).Inv :=
  ⟨(inv.sound.stamp t).inv, inv.frames, inv.depth, fun _ => nofun, fun _ => rfl⟩

/-- Settles O47: what a step has done is one of the cases of `step_cases`, and each keeps the invariant. -/
theorem stepKeepsInvariant : Obligations.StepKeepsInvariant := by
  intro s s' inv h
  have consumed (rest : List Input) : ({ s with inputs := rest } : State).Inv := inv.of_same rfl rfl rfl rfl rfl
  cases step_cases h with
  | idle hr hi h => exact h ▸ inv
  | called op ports rest i hr hi hd h => exact (consumed rest).call hr (isCall_of_decodeOp hd) h
  | took rest hr hi h => exact h ▸ (consumed rest).take
  | opened t bytes rest hr hi running h => exact h ▸ (consumed rest).openRead t bytes running
  | processed t b bytes i hr hd h =>
    rw [decode_parserSelection] at hd
    cases hd
    exact inv.processByte hr h
  | closed t hr h => exact h ▸ inv.closeRead

/-! ## After reset -/

/-- R165, R166: the mnemonics of a table have no lowercase letter if every character is below `a`. -/
theorem CodeTable.admissible_of_below_a {n : Nat} {table : List (Byte × Text)} (size : table.length = n)
    (distinct : (table.map Prod.fst).Nodup) (named : ∀ e ∈ table, e.2 ≠ text "UNKNOWN")
    (below : (table.all fun e => e.2.all fun c => c.toNat < 97) = true) : CodeTable.Admissible n table := by
  refine ⟨size, distinct, fun e he => ⟨named e he, fun c hc lowercase => ?_⟩⟩
  have bound := List.all_eq_true.mp (List.all_eq_true.mp below e he) c hc
  exact Nat.not_lt.mpr lowercase.1 (of_decide_eq_true bound)

/-- R8: the defaults meet its constraints. -/
theorem configAdmissible_default : ConfigAdmissible defaultConfig :=
  ⟨CodeTable.admissible_of_below_a rfl (by decide) (by decide) (by decide), by decide, by decide, by decide, by decide,
    by decide, CodeTable.admissible_of_below_a rfl (by decide) (by decide) (by decide), by decide, by decide, by decide,
    by decide, by decide, by decide⟩

/-- Settles O46: the registers of R35 are sound, and no Frame is taken or waits. -/
theorem resetMeetsInvariant : Obligations.ResetMeetsInvariant :=
  ⟨⟨(Parser.sound_reset (cfg := defaultConfig)).inv, List.forall_mem_nil _, fun _ _ => Nat.zero_le _, fun _ _ => rfl,
    fun _ => rfl⟩, configAdmissible_default⟩

end Sys2Proof.Machine
end

section
/-! PROOF. Unit U1: the checksum table is linear and a permutation, and so what a fold can and cannot hide
(40_checksum.md section 4). -/

namespace Sys2Proof.Machine

/-! ## The table -/

/-- R123's audit: the constants of R121 are the bitwise definition's. -/
theorem tableRead_eq_crcBitwise : ∀ i : Byte, tableRead i = crcBitwise i := by decide

/-- A bitwise step is linear: the shift is, and the polynomial is added once for each high bit. -/
theorem crcBit_xor (a b : Byte) : crcBit (a ^^^ b) = crcBit a ^^^ crcBit b := by
  rw [crcBit, crcBit, crcBit, BitVec.msb_xor, BitVec.shiftLeft_xor_distrib]
  have once : a <<< 1 ^^^ b <<< 1 ^^^ (0x07 : Byte) = a <<< 1 ^^^ 0x07 ^^^ b <<< 1 := by ac_rfl
  have twice : a <<< 1 ^^^ (0x07 : Byte) ^^^ (b <<< 1 ^^^ 0x07) = a <<< 1 ^^^ b <<< 1 ^^^ (0x07 ^^^ 0x07) := by ac_rfl
  cases a.msb with
  | false => cases b.msb with
    | false => rfl
    | true => exact BitVec.xor_assoc ..
  | true => cases b.msb with
    | false => exact once
    | true => exact (twice.trans BitVec.xor_zero).symm

theorem tableRead_xor (a b : Byte) : tableRead (a ^^^ b) = tableRead a ^^^ tableRead b := by
  simp only [tableRead_eq_crcBitwise, crcBitwise, crcBit_xor]

theorem tableRead_zero : tableRead 0 = 0 := rfl

theorem eq_zero_of_tableRead_eq_zero : ∀ i : Byte, tableRead i = 0 → i = 0 := by decide

/-- A linear map with no kernel is injective. -/
theorem tableRead_injective : Function.Injective tableRead := by
  intro i j same
  have kernel : tableRead (i ^^^ j) = 0 := by rw [tableRead_xor, same]; exact BitVec.xor_self
  exact BitVec.xor_eq_zero_iff.mp (eq_zero_of_tableRead_eq_zero _ kernel)

/-- Settles O2: on finitely many bytes an injective table is onto. -/
theorem tableIsTheBitwiseCrc : Obligations.TableIsTheBitwiseCrc :=
  ⟨tableRead_eq_crcBitwise, fun _ _ same => tableRead_injective same,
    Finite.surjective_of_injective tableRead_injective⟩

/-! ## The fold -/

theorem crcFoldFrom_cons (c0 b : Byte) (bytes : ByteString) :
    crcFoldFrom c0 (b :: bytes) = crcFoldFrom (tableRead (b ^^^ c0)) bytes := rfl

/-- Two folds side by side are one fold of the exclusive-ors. -/
theorem crcFoldFrom_zipWith_xor (c d : Byte) (a b : ByteString) (same : a.length = b.length) :
    crcFoldFrom (c ^^^ d) (List.zipWith (· ^^^ ·) a b) = crcFoldFrom c a ^^^ crcFoldFrom d b := by
  induction a generalizing c d b with
  | nil => rw [List.length_eq_zero_iff.mp same.symm]; rfl
  | cons x a ih =>
    cases b with
    | nil => cases same
    | cons y b =>
      have swap : x ^^^ y ^^^ (c ^^^ d) = x ^^^ c ^^^ (y ^^^ d) := by ac_rfl
      rw [List.zipWith_cons_cons, crcFoldFrom_cons, swap, tableRead_xor, ih _ _ b (Nat.succ.inj same)]
      rfl

/-- Settles O5: the case of `crcFoldFrom_zipWith_xor` that starts both folds at 0. -/
theorem checksumIsLinear : Obligations.ChecksumIsLinear :=
  fun a b same => crcFoldFrom_zipWith_xor 0 0 a b same

/-- The same bytes lead from different registers to different registers. -/
theorem crcFoldFrom_injective (bytes : ByteString) : Function.Injective fun c => crcFoldFrom c bytes := by
  induction bytes with
  | nil => exact Function.injective_id
  | cons b bytes ih => exact fun c d same => (BitVec.xor_right_inj b).mp (tableRead_injective (ih same))

/-- Settles O6: the folds agree before the differing byte, so they differ behind it, and stay different. -/
theorem oneWrongByteChangesTheChecksum : Obligations.OneWrongByteChangesTheChecksum := by
  intro before after x y differ same
  rw [crcFold, crcFold, crcFoldFrom_append, crcFoldFrom_append, crcFoldFrom_cons, crcFoldFrom_cons] at same
  exact differ ((BitVec.xor_left_inj _).mp (tableRead_injective (crcFoldFrom_injective after same)))

/-- A string with its own checksum behind it folds to the entry at `c ^^^ c`. -/
theorem crcFold_append_crcFold (bytes : ByteString) : crcFold (bytes ++ [crcFold bytes]) = 0 := by
  rw [crcFold_concat, crcStep, BitVec.xor_self]
  exact tableRead_zero

/-- Settles O4: header and payload of a serialized frame are such strings, by `frameBytes_parts`. -/
theorem checksumOfCheckedStringIsZero : Obligations.ChecksumOfCheckedStringIsZero := by
  refine ⟨fun bytes c s answered => ?_, fun f w s answered => ?_⟩
  · rw [exec_crcFold] at answered
    cases answered
    rw [exec_crcFold, crcFold_append_crcFold]
  · obtain ⟨-, rfl⟩ := (exec_frameSerialize_bytes_iff f w s).mp answered
    have header := slice_append [sync] (headerBytes f ++ [crcFold (headerBytes f)])
      (f.data ++ f.optData ++ [crcFold (f.data ++ f.optData)]) 1 6 rfl rfl
    have payload := slice_append ([sync] ++ (headerBytes f ++ [crcFold (headerBytes f)]))
      (f.data ++ f.optData ++ [crcFold (f.data ++ f.optData)]) [] 6 (frameBytes f).length rfl
      (by rw [frameBytes_parts, List.length_append])
    rw [List.append_nil, ← frameBytes_parts] at payload
    rw [← frameBytes_parts] at header
    rw [header, payload, crcFold_append_crcFold, crcFold_append_crcFold]
    exact ⟨rfl, rfl⟩

end Sys2Proof.Machine
end

section
/-! PROOF. Hexadecimal text read back: HEXDEC (30_encoding.md R94), and the operations that read text. -/

namespace Sys2Proof.Machine

/-! ## HEXDEC -/

theorem append_nibbles : ∀ b : Byte, b.extractLsb' 4 4 ++ b.extractLsb' 0 4 = b := by decide

theorem exists_nibbles : ∀ h l : BitVec 4, ∃ b : Byte, b.extractLsb' 4 4 = h ∧ b.extractLsb' 0 4 = l :=
  fun h l => ⟨h ++ l, by revert h l; decide⟩

theorem hexPairs_hexEnc (bs : ByteString) : hexPairs (hexEnc bs) = some bs := by
  induction bs with
  | nil => rfl
  | cons b bs ih =>
    have two : hexEnc (b :: bs) = hexDigit (b.extractLsb' 4 4) :: hexDigit (b.extractLsb' 0 4) :: hexEnc bs := rfl
    rw [two, hexPairs, hexVal_hexDigit, hexVal_hexDigit, ih]
    exact congrArg (fun x => some (x :: bs)) (append_nibbles b)

/-- Only the digits' values matter. -/
theorem hexPairs_congr (str other : Text) (same : str.map hexVal = other.map hexVal) :
    hexPairs str = hexPairs other := by
  induction str using List.twoStepInduction generalizing other with
  | nil => rw [List.map_eq_nil_iff.mp same.symm]
  | singleton c =>
    obtain ⟨d, rfl, -⟩ := List.map_eq_singleton_iff.mp same.symm
    rfl
  | cons_cons hi lo rest ih =>
    obtain ⟨hi', tail, rfl, hhi, htail⟩ := List.map_eq_cons_iff.mp same.symm
    obtain ⟨lo', rest', rfl, hlo, hrest⟩ := List.map_eq_cons_iff.mp htail
    rw [hexPairs, hexPairs, hhi, hlo, ih rest' hrest.symm]

theorem allHex_cons (c : Byte) (str : Text) : AllHex (c :: str) ↔ (∃ v, hexVal c = some v) ∧ AllHex str := by
  rw [AllHex, List.forall_mem_cons, Option.isSome_iff_exists]

/-- What decodes is made of digits. -/
theorem allHex_of_hexPairs (str : Text) (bs : ByteString) (h : hexPairs str = some bs) : AllHex str := by
  induction str using List.twoStepInduction generalizing bs with
  | nil => exact List.forall_mem_nil _
  | singleton c => cases h
  | cons_cons hi lo rest ih =>
    rw [hexPairs] at h
    split at h
    next hhi hlo hrest => exact (allHex_cons ..).mpr ⟨⟨_, hhi⟩, (allHex_cons ..).mpr ⟨⟨_, hlo⟩, ih _ hrest⟩⟩
    next => cases h

/-- An even number of digits has the values of some bytes' HEXENC. -/
theorem exists_hexEnc_of_allHex (str : Text) (even : str.length % 2 = 0) (digits : AllHex str) :
    ∃ bs, str.map hexVal = (hexEnc bs).map hexVal := by
  induction str using List.twoStepInduction with
  | nil => exact ⟨[], rfl⟩
  | singleton c => cases even
  | cons_cons hi lo rest ih =>
    obtain ⟨⟨h, hhi⟩, tail⟩ := (allHex_cons hi _).mp digits
    obtain ⟨⟨l, hlo⟩, digits⟩ := (allHex_cons lo _).mp tail
    obtain ⟨bs, hbs⟩ := ih ((Nat.add_mod_right _ 2).symm.trans even) digits
    obtain ⟨b, hb⟩ := exists_nibbles h l
    have two : hexEnc (b :: bs) = hexDigit (b.extractLsb' 4 4) :: hexDigit (b.extractLsb' 0 4) :: hexEnc bs := rfl
    refine ⟨b :: bs, ?_⟩
    simp only [two, List.map_cons, hb, hexVal_hexDigit, hhi, hlo, hbs]

theorem hexPad_length_even (str : Text) : (hexPad str).length % 2 = 0 := by
  rw [hexPad]
  split
  · rw [List.length_append, show (text "0").length = 1 from rfl]; omega
  · omega

theorem hexPad_of_even {str : Text} (h : str.length % 2 = 0) : hexPad str = str := by
  rw [hexPad, h, if_neg Nat.zero_ne_one]

/-- R94: padding adds the digit 0 or nothing. -/
theorem hexPad_cases (str : Text) : hexPad str = text "0" ++ str ∨ hexPad str = str := by
  rw [hexPad]
  split
  · exact .inl rfl
  · exact .inr rfl

theorem allHex_hexPad_iff (str : Text) : AllHex (hexPad str) ↔ AllHex str := by
  obtain h | h := hexPad_cases str
  · rw [h]
    exact (allHex_cons _ str).trans (and_iff_right ⟨0, by decide⟩)
  · rw [h]

theorem hexNumber_hexPad (str : Text) : hexNumber (hexPad str) = hexNumber str := by
  obtain h | h := hexPad_cases str
  · rw [h]; rfl
  · rw [h]

theorem hexNumber_congr {str other : Text} (same : str.map hexVal = other.map hexVal) :
    hexNumber str = hexNumber other := by
  have values (x : Text) : hexNumber x = (x.map hexVal).foldl (fun n v => n * 16 + (v.getD 0).toNat) 0 := by
    rw [List.foldl_map]
    rfl
  rw [values, values, same]

theorem hexDec_hexEnc (bs : ByteString) : hexDec (hexEnc bs) = .ok bs := by
  rw [hexDec, hexPad_of_even (by rw [hexEnc_length, Nat.mul_mod_right]), hexPairs_hexEnc]

theorem hexDec_congr {str other : Text} (same : str.map hexVal = other.map hexVal) : hexDec str = hexDec other := by
  have length : str.length = other.length := by simpa using congrArg List.length same
  have padded : (hexPad str).map hexVal = (hexPad other).map hexVal := by
    rw [hexPad, hexPad, length]
    split
    · rw [List.map_append, List.map_append, same]
    · exact same
  rw [hexDec, hexDec, hexPairs_congr _ _ padded]

theorem hexDec_of_odd {str : Text} (odd : str.length % 2 = 1) : hexDec str = hexDec (text "0" ++ str) := by
  have padded : hexPad str = text "0" ++ str := if_pos odd
  have again : hexPad (text "0" ++ str) = text "0" ++ str := hexPad_of_even (padded ▸ hexPad_length_even str)
  rw [hexDec, hexDec, padded, again]

theorem hexDec_of_not_allHex {str : Text} (h : ¬ AllHex str) : hexDec str = .err .invalidHex := by
  rw [hexDec]
  split
  next bs decoded => exact absurd ((allHex_hexPad_iff str).mp (allHex_of_hexPairs _ bs decoded)) h
  next => rfl

/-- R94: digits decode to half as many bytes, rounded up, that spell the same number. -/
theorem hexDec_of_allHex {str : Text} (digits : AllHex str) :
    ∃ bs, hexDec str = .ok bs ∧ bs.length = (str.length + 1) / 2 ∧ bigEndian bs = hexNumber str := by
  obtain ⟨bs, values⟩ := exists_hexEnc_of_allHex _ (hexPad_length_even str) ((allHex_hexPad_iff str).mpr digits)
  have decoded : hexPairs (hexPad str) = some bs := by rw [hexPairs_congr _ _ values, hexPairs_hexEnc]
  have length : (hexPad str).length = 2 * bs.length := by simpa [hexEnc_length] using congrArg List.length values
  refine ⟨bs, by rw [hexDec, decoded], ?_, ?_⟩
  · rw [hexPad] at length
    split at length
    · rw [List.length_append, show (text "0").length = 1 from rfl] at length; omega
    · omega
  · rw [← hexNumber_hexEnc, ← hexNumber_congr values, hexNumber_hexPad]

/-! ## Identifiers as text -/

theorem exec_didFromHex (str : Text) (s : State) :
    exec (.didFromHex str) s = .next { s with result := some ((didFromHex str).map .ident) } := rfl

theorem stripHexMark_marked (rest : Text) : stripHexMark (text "0x" ++ rest) = rest := rfl

theorem stripHexMark_plain {str : Text} (h : ∀ more, str ≠ text "0x" ++ more) : stripHexMark str = str := by
  refine if_neg fun marked => h (str.drop 2) ?_
  rw [← marked, List.take_append_drop]

/-- R144: what the two tests behind the mark answer. -/
theorem didFromHex_of_long {str : Text} (h : 8 < (stripHexMark str).length) : didFromHex str = .err .invalidLength :=
  if_pos h

theorem didFromHex_of_short {str : Text} (h : (stripHexMark str).length ≤ 8) :
    didFromHex str = (hexDec (stripHexMark str)).bind didFromBytes := if_neg (Nat.not_lt.mpr h)

/-- At most eight digits make at most four bytes, which spell the digits' number. -/
theorem didFromHex_of_digits {str : Text} (short : (stripHexMark str).length ≤ 8) (digits : AllHex (stripHexMark str)) :
    didFromHex str = .ok (BitVec.ofNat 32 (hexNumber (stripHexMark str))) := by
  obtain ⟨bs, decoded, length, number⟩ := hexDec_of_allHex digits
  rw [didFromHex_of_short short, decoded, ← number]
  exact didFromBytes_of_short (by omega)

/-- Settles O10: the tests are made on what is left behind the mark, or on the whole text. -/
theorem fromHexStepsInOrder : Obligations.FromHexStepsInOrder := by
  intro str rest s split
  have left : stripHexMark str = rest := by
    obtain rfl | ⟨rfl, plain⟩ := split
    · exact stripHexMark_marked rest
    · exact stripHexMark_plain plain
  subst left
  rw [exec_didFromHex]
  refine ⟨fun long => ?_, fun short noDigits => ?_, fun short digits => ?_⟩
  · rw [didFromHex_of_long long]; rfl
  · rw [didFromHex_of_short short, hexDec_of_not_allHex noDigits]; rfl
  · rw [didFromHex_of_digits short digits]; rfl

theorem didFromBytes_wordBytes (id : Word) : didFromBytes (wordBytes id) = .ok id := by
  rw [didFromBytes_of_short (wordBytes_length id).le, bigEndian_wordBytes, BitVec.ofNat_toNat, BitVec.setWidth_eq]

/-- HEXENC writes no `x`. -/
theorem hexEnc_ne_marked (bs : ByteString) (more : Text) : hexEnc bs ≠ text "0x" ++ more := by
  intro h
  have member : (0x78 : Byte) ∈ hexEnc bs := h ▸ List.mem_append_left more (by decide)
  obtain ⟨v, digit⟩ := exists_hexDigit_of_mem_hexEnc member
  have bounds := hexDigit_lowercase v
  rw [← digit] at bounds
  exact absurd bounds (by decide)

theorem didFromHex_hexEnc_wordBytes (id : Word) : didFromHex (hexEnc (wordBytes id)) = .ok id := by
  have plain := stripHexMark_plain (hexEnc_ne_marked (wordBytes id))
  have short : (stripHexMark (hexEnc (wordBytes id))).length ≤ 8 := by rw [plain, hexEnc_length, wordBytes_length]
  rw [didFromHex_of_short short, plain, hexDec_hexEnc]
  exact didFromBytes_wordBytes id

/-- R87: the four bytes of the identifier they make are the bytes. -/
theorem wordBytes_be32 (b0 b1 b2 b3 : Byte) : wordBytes (be32 b0 b1 b2 b3) = [b0, b1, b2, b3] := by
  have whole := be32_toNat b0 b1 b2 b3
  simp only [wordBytes, List.cons.injEq, ← BitVec.toNat_inj, BitVec.extractLsb'_toNat, Nat.shiftRight_eq_div_pow, whole,
    and_true]
  omega

/-- Settles O11: an identifier's bytes and text spell it, and four bytes are those of the word they make. -/
theorem identifierRoundTrips : Obligations.IdentifierRoundTrips := by
  refine fun s => ⟨fun id bytes h => ?_, fun id str h => ?_, fun id bytes four h => ?_⟩
  · rw [exec_didToBytes] at h
    cases h
    rw [exec_didFromBytes, didFromBytes_wordBytes]; rfl
  · rw [exec_didToString] at h
    cases h
    rw [exec_didFromHex, didFromHex_hexEnc_wordBytes]; rfl
  · match bytes, four with
    | [b0, b1, b2, b3], four =>
      rw [exec_didFromBytes, didFromBytes_of_short four.le, ← be32_eq_bigEndian] at h
      cases h
      rw [exec_didToBytes, wordBytes_be32]

/-! ## Frames as text -/

theorem exec_frameParseHex (str : Text) (s : State) :
    exec (.frameParseHex str) s = .next { s with result := some (((hexDec str).bind (frameParse s.cfg)).map .frame) } :=
  rfl

theorem exec_frameParseHex_hexEnc (w : ByteString) (s : State) :
    exec (.frameParseHex (hexEnc w)) s = exec (.frameParse w) s := by
  rw [exec_frameParseHex, hexDec_hexEnc]
  rfl

/-- Settles O20: the text of a Frame is HEXENC of its bytes, and FRAME.PARSE_HEX sees a text through HEXDEC alone. -/
theorem frameHexTextForms : Obligations.FrameHexTextForms := by
  refine ⟨fun f s limits => ?_, exec_frameParseHex_hexEnc, fun str s odd => ?_, fun str other s same => ?_,
    fun str s noDigits => ?_⟩
  · refine ⟨frameBytes f, hexEnc (frameBytes f), exec_frameSerialize_of_limits f s limits, ?_, hexEnc_length _,
      hexNumber_hexEnc _, fun c hc => ?_, fun known => ?_⟩
    · rw [exec_frameSerializeHex, frameSerializeHex, frameSerialize_of_limits limits]; rfl
    · obtain ⟨v, rfl⟩ := exists_hexDigit_of_mem_hexEnc hc
      exact hexDigit_lowercase v
    · rw [exec_frameParseHex_hexEnc, exec_frameParse_frameBytes limits known]
  · rw [exec_frameParseHex, exec_frameParseHex, hexDec_of_odd odd]
  · rw [exec_frameParseHex, exec_frameParseHex, hexDec_congr same]
  · rw [exec_frameParseHex, hexDec_of_not_allHex noDigits]; rfl

end Sys2Proof.Machine
end

section
/-! PROOF. Unit U5, the stream parser: the whole selection table, and the transitions that restart or keep a header. -/

namespace Sys2Proof.Machine

/-- R215, R66: the two length fields, added without wrapping, whatever is buffered. -/
theorem headerTotal_eq (p : Parser) : p.headerTotal =
    (byteAt p.hbuf 0).toNat * 256 + (byteAt p.hbuf 1).toNat + (byteAt p.hbuf 2).toNat := by
  rw [Parser.headerTotal, Parser.headerDataLen, Parser.headerOptLen, be16_toNat]

/-- Settles O37: in each state the equation of its row of R99, whose conditions exclude each other. -/
theorem transitionSelectionTable : Obligations.TransitionSelectionTable := by
  intro p b
  rw [← headerTotal_eq]
  cases st : p.st with
  | ws => rw [selected_of_ws st]; split_ifs <;> simp_all
  | wh => simp [selected_of_wh st]
  | whc => rw [selected_of_whc st]; split_ifs <;> simp_all
  | wd => simp [selected_of_wd st]
  | wdc => rw [selected_of_wdc st]; split_ifs <;> simp_all

/-- Settles O38: `exec_selected` for the selected transition; any other fails the test of `runTransition`. -/
theorem exactlyTheSelectedTransitionRuns : Obligations.ExactlyTheSelectedTransitionRuns := by
  refine fun tr b s running room byte => ⟨fun sel => ?_, fun other => ?_⟩
  · rw [← sel, exec_selected]
    exact commit_eq running room
  · rw [exec_transition, byte, runTransition, if_neg (Bool.eq_false_iff.mp running), if_neg other]

/-- Settles O27: the total of three zero length bytes is 0, and 0x55 is the checksum. -/
theorem whcZeroSyncRestarts : Obligations.WhcZeroSyncRestarts := by
  intro h3 s running st header crc
  have total : s.parser.headerTotal = 0 := (headerTotal_eq_zero_iff s.parser header).mpr ⟨rfl, rfl, rfl⟩
  have sel : s.parser.selected sync = .whcZeroSync := by
    rw [selected_of_whc st, crc, if_pos (by rfl), if_pos total, if_pos (by rfl)]
  have effect : whcZeroSync s.parser =
      { s.parser with dlen := 0, olen := 0, ptc := h3, hbuf := [], crc := 0x00, st := .wh } := by
    rw [whcZeroSync, headerPacketType_of s.parser header]
    rfl
  rw [← effect]
  exact exec_of_selected_silent .whcZeroSync sync running sel (by decide)

/-- Settles O30: 0x55 is not the checksum and none is buffered, so the byte itself may begin a frame. -/
theorem whcResyncCurRestarts : Obligations.WhcResyncCurRestarts := by
  intro s running st crc notBuffered
  have mismatch : sync ≠ s.parser.crc := crc.symm
  have sel : s.parser.selected sync = .whcResyncCur := by
    rw [selected_of_whc st, if_neg mismatch, if_neg notBuffered, if_pos (by rfl)]
  exact exec_of_selected_silent .whcResyncCur sync running sel (by decide)

/-- R222: the kept bytes fill a header exactly if the first 0x55 was the first byte. -/
theorem whcResyncBuf_of_header {p : Parser} {before after : ByteString} (b : Byte)
    (header : p.hbuf = before ++ sync :: after) (first : sync ∉ before) (full : p.hbuf.length = 4) :
    whcResyncBuf b p = { p with
      hbuf := after ++ [b]
      crc := crcFold (after ++ [b])
      st := if before = [] then .whc else .wh } := by
  rw [header] at full
  have kept : keptHeader p.hbuf b = after ++ [b] := by rw [header, keptHeader_eq b before after first full]
  have fill : (after ++ [b]).length = 4 ↔ before = [] := by
    rw [← List.length_eq_zero_iff]
    simp only [List.length_append, List.length_cons, List.length_nil] at full ⊢
    omega
  rw [whcResyncBuf, kept]
  simp only [fill]

/-- Settles O31: the effect is `whcResyncBuf_of_header`'s. -/
theorem whcResyncBufKeepsTheRest : Obligations.WhcResyncBufKeepsTheRest := by
  intro b before after s running st mismatch header first full
  have buffered : 0x55 ∈ s.parser.hbuf := header ▸ List.mem_append_right _ (List.mem_cons_self ..)
  have sel : s.parser.selected b = .whcResyncBuf := by
    rw [selected_of_whc st, if_neg mismatch, if_pos buffered]
  rw [← whcResyncBuf_of_header b header first full]
  exact exec_of_selected_silent .whcResyncBuf b running sel (by decide)

/-- Settles O33: in WDC the byte 0x55 is tested before the checksum. -/
theorem wdcSyncAbandons : Obligations.WdcSyncAbandons := by
  intro s running st
  have sel : s.parser.selected sync = .wdcSync := by rw [selected_of_wdc st, if_pos (by rfl)]
  exact exec_of_selected_silent .wdcSync sync running sel (by decide)

/-- R231: an unknown code is emitted exactly with `emit_raw`. -/
theorem emits_of_unknown {cfg : Config} {ptc : Byte} (h : ptc ∉ cfg.ptTable.map Prod.fst) :
    emits cfg ptc = (cfg.spUnknownPt == .emitRaw) := by
  rw [emits, (ptKnown_eq_false_iff cfg ptc).mpr h, Bool.false_or]

/-- Settles O36: SP.WDC.OK is selected, and the parameter decides by `emits_of_unknown` whether it emits. -/
theorem unknownPacketTypeAtEmission : Obligations.UnknownPacketTypeAtEmission := by
  intro s running st noSync unknown
  have sel : s.parser.selected s.parser.crc = .wdcOk := by rw [selected_of_wdc st, if_neg noSync, if_pos rfl]
  refine ⟨fun drop => ?_, fun raw full room => ?_⟩
  · have silent : emits s.cfg s.parser.ptc = false := by rw [emits_of_unknown unknown, drop]; rfl
    have effect : wdcOk s.cfg s.parser = { s.parser with st := .ws } := by
      rw [wdcOk, if_neg (Bool.eq_false_iff.mp silent)]
    have same : (wdcOk s.cfg s.parser).outq = s.parser.outq := by rw [effect]
    rw [← effect]
    exact exec_of_selected .wdcOk s.parser.crc running sel (overfull_of_same same)
  · have emitted : emits s.cfg s.parser.ptc = true := by rw [emits_of_unknown unknown, raw]; rfl
    have effect := wdcOk_of_emits full emitted
    rw [← effect]
    exact exec_of_selected .wdcOk s.parser.crc running sel
      (overfull_eq_false_of_append_one (congrArg Parser.outq effect) room)

end Sys2Proof.Machine
end

section
/-! PROOF. Unit U5, the stream parser: the events, and a read taken in parts. -/

namespace Sys2Proof.Machine

/-! ## One read -/

theorem exec_spRead (t : Nat) (bytes : ByteString) (s : State) :
    exec (.spRead t bytes) s = commit s (readBytes s.cfg t bytes s.parser) := rfl

theorem gapForce_of_elapsed {cfg : Config} {t : Nat} {p : Parser} (h : gapElapsed cfg p.tLast t = true) :
    gapForce cfg t p = { p with st := .ws } := if_pos h

theorem gapForce_of_not_elapsed {cfg : Config} {t : Nat} {p : Parser} (h : gapElapsed cfg p.tLast t = false) :
    gapForce cfg t p = p := if_neg (Bool.eq_false_iff.mp h)

/-- R233, R235: 100 ms in nanoseconds. -/
theorem gapElapsed_some (cfg : Config) (t0 t : Nat) :
    gapElapsed cfg (some t0) t = true ↔ 100000000 ≤ (t - t0) * cfg.timeUnitNs := by
  rw [gapElapsed_iff, gapNs]
  simp

/-- R234. -/
theorem exec_spRead_nil (t : Nat) {s : State} (running : s.stopped = false) : exec (.spRead t []) s = .next s := by
  rw [exec_spRead, readBytes_nil]
  exact commit_eq running (overfull_of_same rfl)

/-- R233 with room for what is emitted: the bytes from the registers the gap rule leaves, then the time stamp. -/
theorem exec_spRead_cons {t : Nat} {b : Byte} {bytes : ByteString} {s : State} {start : Parser}
    (running : s.stopped = false) (forced : gapForce s.cfg t s.parser = start)
    (room : RoomFor s (processBytes s.cfg start (b :: bytes))) :
    exec (.spRead t (b :: bytes)) s =
      .next { s with parser := { processBytes s.cfg start (b :: bytes) with tLast := some t } } := by
  subst forced
  rw [exec_spRead, readBytes_of_ne s.cfg t s.parser (List.cons_ne_nil b bytes)]
  exact commit_eq running room

/-- Settles O39: an empty read writes nothing; else the two premises on `start` are the two outcomes of the gap test. -/
theorem readAppliesGapRuleThenTransitions : Obligations.ReadAppliesGapRuleThenTransitions := by
  refine fun t s running => ⟨exec_spRead_nil t running, fun b bytes start gap room => exec_spRead_cons running ?_ room⟩
  obtain ⟨⟨t0, last, elapsed⟩, rfl⟩ | ⟨short, rfl⟩ := gap
  · exact gapForce_of_elapsed (last ▸ (gapElapsed_some s.cfg t0 t).mpr elapsed)
  · refine gapForce_of_not_elapsed (Bool.eq_false_iff.mpr fun elapsed => ?_)
    obtain ⟨t0, last, long⟩ := (gapElapsed_iff ..).mp elapsed
    exact Nat.not_le.mpr (short t0 last) long

/-- Settles O40: 100 units of a million nanoseconds are the gap. -/
theorem gapOfHundredMillisecondsForcesWaitSync : Obligations.GapOfHundredMillisecondsForcesWaitSync := by
  refine fun t b bytes s running unit => ⟨fun t0 last late room => ?_, fun t0 last soon room => ?_,
    fun first room => ?_⟩
  · refine exec_spRead_cons running (gapForce_of_elapsed ?_) room
    rw [last, gapElapsed_some, unit]
    omega
  · refine exec_spRead_cons running (gapForce_of_not_elapsed (Bool.eq_false_iff.mpr ?_)) room
    rw [last, Ne, gapElapsed_some, unit]
    omega
  · exact exec_spRead_cons running (gapForce_of_not_elapsed (by rw [first]; rfl)) room

/-- Settles O44: `commit` tests the queue after the read. -/
theorem fullQueueIsRefused : Obligations.FullQueueIsRefused := by
  intro t bytes s running after
  rw [exec_spRead]
  refine ⟨fun depth finite grown full => ?_, fun unbounded => ⟨_, commit_eq running ?_⟩⟩
  · have overfull : ¬ overfull s.cfg s.parser (readBytes s.cfg t bytes s.parser) = false := fun room =>
      Nat.not_le.mpr full (overfull_eq_false.mp room depth finite grown)
    rw [commit, if_neg (Bool.eq_false_iff.mp running), if_pos (Bool.not_eq_false _ ▸ overfull)]
  · exact overfull_eq_false.mpr fun depth finite => nomatch unbounded.symm.trans finite

/-! ## Stop and reset -/

theorem exec_spStop (s : State) :
    exec .spStop s = if s.stopped then .refused .afterStop else .next (s.putStopped true) := rfl

theorem exec_spReset (s : State) : exec .spReset s = .next ((s.putParser Parser.reset).putStopped false) := rfl

/-- Settles O42: the first test of every event but SP.RESET, and of every transition, is the stop. -/
theorem stopEndsTheRun : Obligations.StopEndsTheRun := by
  refine ⟨fun s running => ?_, fun s stopped => ⟨fun t bytes => ?_, fun t info => ?_, ?_, fun tr b => ?_,
    ⟨_, exec_spReset s, rfl⟩⟩⟩
  · rw [exec_spStop, if_neg (Bool.eq_false_iff.mp running)]; rfl
  · rw [exec_spRead, commit, if_pos stopped]
  · rw [exec_spReadErr, if_pos stopped]
  · rw [exec_spStop, if_pos stopped]
  · rw [exec_transition, runTransition, if_pos stopped]

/-- Settles O43: `exec_spReset` with the constants of R35 written out. -/
theorem resetRestoresEveryRegister : Obligations.ResetRestoresEveryRegister := fun s => exec_spReset s

/-! ## What no instruction writes -/

/-- R9: an instruction is a call of R98 or a transition of R99. -/
theorem isCall_or_transition (i : Instr) : IsCall i ∨ ∃ tr b, i = Transition.instr tr b := by
  cases i with
  | spRead t bytes => exact .inl (.read t bytes)
  | spReadErr t info => exact .inl (.readErr t info)
  | spStop => exact .inl .stop
  | spReset => exact .inl .reset
  | spWsSync => exact .inr ⟨.wsSync, sync, rfl⟩
  | spWsSkip b => exact .inr ⟨.wsSkip, b, rfl⟩
  | spWhAcc b => exact .inr ⟨.whAcc, b, rfl⟩
  | spWhcOk b => exact .inr ⟨.whcOk, b, rfl⟩
  | spWhcZeroSync => exact .inr ⟨.whcZeroSync, sync, rfl⟩
  | spWhcZero b => exact .inr ⟨.whcZero, b, rfl⟩
  | spWhcResyncNone b => exact .inr ⟨.whcResyncNone, b, rfl⟩
  | spWhcResyncCur => exact .inr ⟨.whcResyncCur, sync, rfl⟩
  | spWhcResyncBuf b => exact .inr ⟨.whcResyncBuf, b, rfl⟩
  | spWdAcc b => exact .inr ⟨.wdAcc, b, rfl⟩
  | spWdcSync => exact .inr ⟨.wdcSync, sync, rfl⟩
  | spWdcOk b => exact .inr ⟨.wdcOk, b, rfl⟩
  | spWdcBad b => exact .inr ⟨.wdcBad, b, rfl⟩
  | _ => exact .inl (.oneShot rfl)

/-- Settles O45: an answer is a one-shot operation's, a reset is SP.RESET's, and what a read or a transition leaves in
the queue begins with what was there. -/
theorem eventsKeepOutcomesAndQueueOrder : Obligations.EventsKeepOutcomesAndQueueOrder := by
  intro i s s' h
  obtain call | ⟨tr, b, rfl⟩ := isCall_or_transition i
  · cases call with
    | oneShot once =>
      obtain ⟨r, answers⟩ := exec_oneShot s.cfg once
      cases (answers s rfl).symm.trans h
      exact ⟨rfl, rfl, rfl, rfl, fun other => (nomatch once.symm.trans other), fun _ => List.prefix_rfl⟩
    | read t bytes =>
      obtain ⟨-, -, rfl⟩ := commit_next.mp h
      exact ⟨rfl, rfl, rfl, rfl, fun _ => rfl, fun _ => readBytes_outq_prefix s.cfg t bytes s.parser⟩
    | readErr t info =>
      rw [exec_spReadErr] at h
      split at h <;> cases h
      exact ⟨rfl, rfl, rfl, rfl, fun _ => rfl, fun _ => List.prefix_rfl⟩
    | stop =>
      rw [exec_spStop] at h
      split at h <;> cases h
      exact ⟨rfl, rfl, rfl, rfl, fun _ => rfl, fun _ => List.prefix_rfl⟩
    | reset =>
      cases h
      exact ⟨rfl, rfl, rfl, rfl, fun _ => rfl, fun other => absurd rfl other⟩
  · rw [exec_transition] at h
    obtain ⟨-, -, -, rfl⟩ := runTransition_next.mp h
    exact ⟨rfl, rfl, rfl, rfl, fun _ => rfl, fun _ => transitionEffect_outq_prefix ..⟩

end Sys2Proof.Machine
end

section
/-! PROOF. Unit U5, the stream parser: how the bytes are cut into reads, or into the parts of one read, does
not matter. -/

namespace Sys2Proof.Machine

/-! ## The time stamp and the transitions -/

/-- The registers with another time of the latest read. -/
def Parser.withTime (p : Parser) (t : Option Nat) : Parser := { p with tLast := t }

theorem processByte_withTime (cfg : Config) (p : Parser) (t : Option Nat) (b : Byte) :
    processByte cfg (p.withTime t) b = (processByte cfg p b).withTime t := by
  have same : (p.withTime t).selected b = p.selected b := rfl
  rw [processByte, processByte, same]
  cases p.selected b with
  | wdcOk =>
    show wdcOk cfg (p.withTime t) = (wdcOk cfg p).withTime t
    rw [wdcOk, wdcOk, show (p.withTime t).ptc = p.ptc from rfl]
    split <;> rfl
  | _ => rfl

theorem processBytes_withTime (cfg : Config) (p : Parser) (t : Option Nat) (bytes : ByteString) :
    processBytes cfg (p.withTime t) bytes = (processBytes cfg p bytes).withTime t := by
  induction bytes generalizing p with
  | nil => rfl
  | cons b bytes ih => rw [processBytes_cons, processBytes_cons, processByte_withTime, ih]

/-! ## Several reads -/

theorem runReads_cons (cfg : Config) (t : Nat) (bytes : ByteString) (reads : List (Nat × ByteString)) (p : Parser) :
    runReads cfg ((t, bytes) :: reads) p = runReads cfg reads (readBytes cfg t bytes p) := rfl

theorem runReads_append (cfg : Config) (first second : List (Nat × ByteString)) (p : Parser) :
    runReads cfg (first ++ second) p = runReads cfg second (runReads cfg first p) := List.foldl_append

theorem readBytesOf_cons (t : Nat) (bytes : ByteString) (reads : List (Nat × ByteString)) :
    readBytesOf ((t, bytes) :: reads) = bytes ++ readBytesOf reads := List.flatMap_cons

theorem gapFree_cons_of_ne {cfg : Config} {tLast : Option Nat} {t : Nat} {bytes : ByteString}
    {reads : List (Nat × ByteString)} (nonempty : bytes ≠ []) :
    gapFree cfg tLast ((t, bytes) :: reads) = true ↔
      gapElapsed cfg tLast t = false ∧ gapFree cfg (some t) reads = true := by
  rw [gapFree, if_neg nonempty, Bool.and_eq_true, Bool.not_eq_true']

/-- R237: without a gap, reads are one fold over their bytes, but for `t_last`. -/
theorem runReads_of_gapFree {cfg : Config} {reads : List (Nat × ByteString)} {p : Parser}
    (free : gapFree cfg p.tLast reads = true) :
    (runReads cfg reads p).withTime none = (processBytes cfg p (readBytesOf reads)).withTime none := by
  induction reads generalizing p with
  | nil => rfl
  | cons read reads ih =>
    obtain ⟨t, bytes⟩ := read
    rw [runReads_cons, readBytesOf_cons]
    by_cases empty : bytes = []
    · subst empty
      rw [readBytes_nil]
      exact ih free
    · obtain ⟨short, later⟩ := (gapFree_cons_of_ne empty).mp free
      have stamped : readBytes cfg t bytes p = (processBytes cfg p bytes).withTime (some t) := by
        rw [readBytes_of_ne cfg t p empty, gapForce_of_not_elapsed short]
        rfl
      rw [stamped, ih later, processBytes_append, processBytes_withTime]
      rfl

/-- Reads that complete leave the registers of `runReads`, and write nothing else. -/
theorem execAll_readInstrs_next {reads : List (Nat × ByteString)} {s s' : State}
    (h : execAll (readInstrs reads) s = .next s') : s' = s.putParser (runReads s.cfg reads s.parser) := by
  induction reads generalizing s with
  | nil => cases h; rfl
  | cons read reads ih =>
    obtain ⟨t, bytes⟩ := read
    rw [readInstrs, List.map_cons, execAll] at h
    split at h
    next s1 first =>
      obtain ⟨-, -, rfl⟩ := commit_next.mp first
      exact ih h
    all_goals cases h

/-- With an unbounded queue a running parser completes any reads. -/
theorem execAll_readInstrs_of_unbounded (reads : List (Nat × ByteString)) {s : State} (running : s.stopped = false)
    (unbounded : s.cfg.outqDepth = none) :
    execAll (readInstrs reads) s = .next (s.putParser (runReads s.cfg reads s.parser)) := by
  induction reads generalizing s with
  | nil => rfl
  | cons read reads ih =>
    obtain ⟨t, bytes⟩ := read
    have first := commit_eq (p := readBytes s.cfg t bytes s.parser) running
      (overfull_eq_false.mpr fun depth finite => nomatch unbounded.symm.trans finite)
    rw [readInstrs, List.map_cons, execAll, exec_spRead, first]
    exact ih (s := s.putParser (readBytes s.cfg t bytes s.parser)) running unbounded

/-- Settles O50: both cuts are one fold over the same bytes, by `runReads_of_gapFree`. -/
theorem chunkingDoesNotMatter : Obligations.ChunkingDoesNotMatter := by
  intro s s1 s2 reads1 reads2 free1 free2 same first second
  rw [execAll_readInstrs_next first, execAll_readInstrs_next second]
  exact (runReads_of_gapFree free1).trans (same ▸ (runReads_of_gapFree free2).symm)

/-! ## The parts of one read, log 15 -/

theorem overfull_congr {cfg : Config} {p q p' q' : Parser} (hp : p.outq = p'.outq) (hq : q.outq = q'.outq) :
    overfull cfg p q = overfull cfg p' q' := by
  rw [overfull, overfull, hp, hq]

/-- A queue that only grows is overfull at the end exactly if it is so on the way there or from there on (log 12). -/
theorem overfull_trans {cfg : Config} {p q r : Parser} (hpq : p.outq <+: q.outq) (hqr : q.outq <+: r.outq) :
    overfull cfg p r = (overfull cfg p q || overfull cfg q r) := by
  have first := hpq.length_le
  have second := hqr.length_le
  unfold overfull
  cases cfg.outqDepth with
  | none => rfl
  | some depth =>
    rw [Bool.eq_iff_iff]
    simp only [Bool.or_eq_true, Bool.and_eq_true, decide_eq_true_eq]
    omega

theorem overfull_processBytes_cons (cfg : Config) (p : Parser) (b : Byte) (bytes : ByteString) :
    overfull cfg p (processBytes cfg p (b :: bytes)) =
      (overfull cfg p (processByte cfg p b) ||
        overfull cfg (processByte cfg p b) (processBytes cfg (processByte cfg p b) bytes)) :=
  overfull_trans (processByte_outq_prefix cfg p b) (processBytes_outq_prefix cfg bytes _)

theorem commit_of_running {s : State} {p : Parser} (running : s.stopped = false) :
    commit s p = if overfull s.cfg s.parser p then .refused .outqFull else .next (s.putParser p) :=
  if_neg (Bool.eq_false_iff.mp running)

/-- R233: the steps inside a read, from its next byte to its end. -/
theorem runSteps_reading {s : State} {t : Nat} {bytes : ByteString} (running : s.stopped = false)
    (hr : s.reading = some ⟨t, bytes⟩) :
    runSteps (bytes.length + 1) s =
      if overfull s.cfg s.parser (processBytes s.cfg s.parser bytes) then .refused .outqFull
      else .next (closeRead t (s.putParser (processBytes s.cfg s.parser bytes))) := by
  induction bytes generalizing s with
  | nil =>
    rw [List.length_nil, runSteps, step_of_reading_nil hr, processBytes_nil, overfull_of_same rfl]
    rfl
  | cons b bytes ih =>
    have first : step s = if overfull s.cfg s.parser (processByte s.cfg s.parser b) then .refused .outqFull
        else .next ((s.putReading (some ⟨t, bytes⟩)).putParser (processByte s.cfg s.parser b)) :=
      (step_of_reading_cons hr).trans
        ((exec_selected (s.putReading (some ⟨t, bytes⟩)) b).trans (commit_of_running running))
    rw [List.length_cons, runSteps, overfull_processBytes_cons]
    by_cases full : overfull s.cfg s.parser (processByte s.cfg s.parser b) = true
    · rw [first, if_pos full, full]
      rfl
    · rw [first, if_neg full, Bool.eq_false_iff.mpr full, Bool.false_or]
      exact ih (s := (s.putReading (some ⟨t, bytes⟩)).putParser (processByte s.cfg s.parser b)) running rfl

/-- What closes a read that was opened outside a read: the registers stamped, the rest as before it. -/
theorem closeRead_of_opened {s : State} (outside : s.reading = none) (t : Nat) (r : Option Reading) (p q : Parser) :
    closeRead t (((s.putParser p).putReading r).putParser q) = s.putParser (q.stamp t) := by
  cases s
  cases outside
  rfl

/-- A read opened, and then run byte by byte, is the whole read. -/
theorem runSteps_openRead {s : State} (t : Nat) {bytes : ByteString} (outside : s.reading = none)
    (running : s.stopped = false) (nonempty : bytes ≠ []) :
    runSteps (bytes.length + 1) (openRead t bytes s) = exec (.spRead t bytes) s := by
  rw [openRead_of_ne t s nonempty, exec_spRead, commit_of_running running, readBytes_of_ne _ _ _ nonempty]
  have room := overfull_congr (cfg := s.cfg) (gapForce_outq s.cfg t s.parser)
    (Parser.stamp_outq (processBytes s.cfg (gapForce s.cfg t s.parser) bytes) t).symm
  rw [← room, ← closeRead_of_opened outside t (some ⟨t, bytes⟩) (gapForce s.cfg t s.parser)]
  exact runSteps_reading (s := (s.putParser (gapForce s.cfg t s.parser)).putReading (some ⟨t, bytes⟩)) running rfl

/-- Settles O60: after a stop both are refused, an empty read is nothing, and a non-empty one is opened by its first
step and run to its end by the others. -/
theorem bytewiseReadIsTheWholeRead : Obligations.BytewiseReadIsTheWholeRead := by
  intro s t bytes rest hr hi
  have begun := step_of_bytewiseRead hr hi
  by_cases stopped : s.stopped = true
  · rw [if_pos stopped] at begun
    rw [exec_spRead, commit, if_pos stopped]
    split <;> rw [runSteps, begun]
  · have running := Bool.eq_false_iff.mpr stopped
    rw [if_neg stopped] at begun
    by_cases empty : bytes = []
    · subst empty
      rw [if_pos rfl, runSteps, begun, openRead_nil]
      exact (exec_spRead_nil t (s := { s with inputs := rest }) running).symm
    · rw [if_neg empty, runSteps, begun]
      exact runSteps_openRead t hr running empty

end Sys2Proof.Machine
end

section
/-! PROOF. Unit U5, the stream parser: what it does with a whole serialized frame (44_stream_parser.md section 8). -/

namespace Sys2Proof.Machine

/-! ## The parts of a frame -/

theorem processBytes_concat (cfg : Config) (p : Parser) (bytes : ByteString) (b : Byte) :
    processBytes cfg p (bytes ++ [b]) = processByte cfg (processBytes cfg p bytes) b := List.foldl_concat ..

theorem gapForce_st_of_ws (cfg : Config) (t : Nat) {p : Parser} (st : p.st = .ws) : (gapForce cfg t p).st = .ws := by
  rw [gapForce]
  split
  · rfl
  · exact st

/-- R213: bytes before a frame, none of them 0x55, are skipped. -/
theorem processBytes_of_noSync (cfg : Config) {p : Parser} {bytes : ByteString} (st : p.st = .ws)
    (noSync : 0x55 ∉ bytes) : processBytes cfg p bytes = p := by
  induction bytes with
  | nil => rfl
  | cons b bytes ih =>
    obtain ⟨other, noSync⟩ := not_or.mp (List.mem_cons.not.mp noSync)
    rw [processBytes_cons, processByte_of_ws cfg b st, if_neg (Ne.symm other), ih noSync]

/-- The registers in WHC with four header bytes buffered and folded (R230). -/
def Parser.withHeader (p : Parser) (hbuf : ByteString) : Parser :=
  { p with hbuf := hbuf, crc := crcFold hbuf, st := .whc }

/-- R212, R214: the sync byte and four more bring the parser from WS to WHC. -/
theorem processBytes_sync_header (cfg : Config) {p : Parser} (st : p.st = .ws) (h0 h1 h2 h3 : Byte) :
    processBytes cfg p [sync, h0, h1, h2, h3] = p.withHeader [h0, h1, h2, h3] := by
  rw [processBytes_cons, processByte_of_ws cfg sync st, sync, if_pos rfl, processBytes_cons,
    processByte_of_wh cfg h0 rfl, processBytes_cons, processByte_of_wh cfg h1 rfl, processBytes_cons,
    processByte_of_wh cfg h2 rfl, processBytes_cons, processByte_of_wh cfg h3 rfl, processBytes_nil]
  rfl

/-- R224: the payload of the length announced brings the parser from WD to WDC. -/
theorem processBytes_payload (cfg : Config) {p : Parser} {bytes : ByteString} (st : p.st = .wd) (nonempty : bytes ≠ [])
    (fills : p.pbuf.length + bytes.length = p.payloadTotal) :
    processBytes cfg p bytes =
      { p with pbuf := p.pbuf ++ bytes, crc := crcFoldFrom p.crc bytes, st := .wdc } := by
  induction bytes generalizing p with
  | nil => exact absurd rfl nonempty
  | cons b bytes ih =>
    rw [List.length_cons] at fills
    have length : (p.pbuf ++ [b]).length = p.pbuf.length + 1 := List.length_append
    rw [processBytes_cons, processByte_of_wd cfg b st]
    by_cases last : bytes = []
    · subst last
      rw [processBytes_nil, wdAcc, if_pos (length.trans fills)]
      rfl
    · have more : (p.pbuf ++ [b]).length ≠ p.payloadTotal := by
        have := List.length_pos_iff.mpr last
        omega
      have acc : wdAcc b p = { p with pbuf := p.pbuf ++ [b], crc := crcStep b p.crc, st := .wd } := by
        rw [wdAcc, if_neg more, st]
      have later := ih (p := wdAcc b p) (by rw [acc]) last
        (by rw [acc]; show (p.pbuf ++ [b]).length + bytes.length = p.payloadTotal; omega)
      rw [later, acc, List.append_cons p.pbuf b bytes]
      rfl

/-! ## A whole frame -/

/-- The registers in WDC after the header and the payload of a frame. -/
def Parser.withPayload (p : Parser) (f : Frame) : Parser :=
  { p with
    hbuf := headerBytes f, dlen := BitVec.ofNat 16 f.data.length, olen := BitVec.ofNat 8 f.optData.length
    ptc := f.packetType, pbuf := f.data ++ f.optData, crc := crcFold (f.data ++ f.optData), st := .wdc }

section
variable (p : Parser) {f : Frame} (limits : FrameWithinLimits f)
include limits

theorem withPayload_dlen_toNat : (p.withPayload f).dlen.toNat = f.data.length :=
  (BitVec.toNat_ofNat ..).trans (Nat.mod_eq_of_lt (Nat.lt_succ_of_le limits.1))

theorem withPayload_payloadTotal : (p.withPayload f).payloadTotal = f.data.length + f.optData.length :=
  congrArg₂ _ (withPayload_dlen_toNat p limits)
    ((BitVec.toNat_ofNat ..).trans (Nat.mod_eq_of_lt (Nat.lt_succ_of_le limits.2)))

/-- R229: the Frame in the payload buffer is the frame that arrived. -/
theorem withPayload_payloadFrame : (p.withPayload f).payloadFrame = f := by
  rw [payloadFrame_eq _ (List.length_append.trans (withPayload_payloadTotal p limits).symm),
    withPayload_dlen_toNat p limits]
  show (⟨f.packetType, (f.data ++ f.optData).take f.data.length, (f.data ++ f.optData).drop f.data.length⟩ : Frame) = f
  rw [List.take_left, List.drop_left]

end

/-- R80: the serialization as the parser's states see it. -/
theorem frameBytes_phases (f : Frame) :
    frameBytes f = sync :: headerBytes f ++ [crcFold (headerBytes f)] ++ (f.data ++ f.optData) ++
      [crcFold (f.data ++ f.optData)] := by
  rw [frameBytes_parts]
  simp only [List.append_assoc, List.cons_append, List.nil_append]

theorem frameBytes_ne_nil (f : Frame) : frameBytes f ≠ [] :=
  List.length_pos_iff.mp (by rw [frameBytes_length]; omega)

/-- The states a frame leads through from WS: WHC behind its header, then whatever its header's checksum selects. -/
theorem processBytes_frameBytes_eq (cfg : Config) {p : Parser} (f : Frame) (st : p.st = .ws) :
    processBytes cfg p (frameBytes f) =
      processByte cfg (processBytes cfg (processByte cfg (p.withHeader (headerBytes f)) (crcFold (headerBytes f)))
        (f.data ++ f.optData)) (crcFold (f.data ++ f.optData)) := by
  have header : processBytes cfg p (sync :: headerBytes f) = p.withHeader (headerBytes f) :=
    processBytes_sync_header cfg st ..
  rw [frameBytes_phases, processBytes_concat, processBytes_append, processBytes_concat, header]

/-- R216, R224: a header that announces a payload, and that payload, lead to WDC. -/
theorem processBytes_frameBytes_of_nonempty (cfg : Config) {p : Parser} {f : Frame} (limits : FrameWithinLimits f)
    (nonempty : f.data ++ f.optData ≠ []) (st : p.st = .ws) :
    processBytes cfg p (frameBytes f) = processByte cfg (p.withPayload f) (crcFold (f.data ++ f.optData)) := by
  obtain ⟨hi, lo, opt, hdata, hopt, header⟩ := headerBytes_eq f limits
  have total : (p.withHeader (headerBytes f)).headerTotal ≠ 0 := by
    rw [headerTotal_of _ header, hdata, hopt, ← List.length_append]
    exact fun zero => nonempty (List.length_eq_zero_iff.mp zero)
  have accepted : processByte cfg (p.withHeader (headerBytes f)) (crcFold (headerBytes f)) =
      { p.withPayload f with pbuf := [], crc := 0, st := .wd } := by
    rw [processByte_of_whc cfg _ rfl, if_pos (by rfl), if_neg total, whcOk_of_header header, hdata, Parser.withPayload,
      ← hopt, BitVec.ofNat_toNat, BitVec.setWidth_eq]
    rfl
  have buffered := processBytes_payload cfg (p := { p.withPayload f with pbuf := [], crc := 0, st := .wd }) rfl nonempty
    ((Nat.zero_add _).trans (List.length_append.trans (withPayload_payloadTotal p limits).symm))
  rw [processBytes_frameBytes_eq cfg f st, accepted, buffered]
  rfl

/-- R226: the payload checksum 0x55 restarts the parser. -/
theorem processBytes_frameBytes_of_sync (cfg : Config) {p : Parser} {f : Frame} (limits : FrameWithinLimits f)
    (nonempty : f.data ++ f.optData ≠ []) (st : p.st = .ws) (crc : crcFold (f.data ++ f.optData) = 0x55) :
    processBytes cfg p (frameBytes f) = (p.withPayload f).restart := by
  rw [processBytes_frameBytes_of_nonempty cfg limits nonempty st, processByte_of_wdc cfg _ rfl, if_pos crc]

/-- R227: any other payload checksum emits the frame. -/
theorem processBytes_frameBytes_of_emittable {cfg : Config} {p : Parser} {f : Frame} (h : FrameEmittable cfg f)
    (st : p.st = .ws) : (processBytes cfg p (frameBytes f)).outq = p.outq ++ [f] ∧
      (processBytes cfg p (frameBytes f)).st = .ws := by
  obtain ⟨limits, announced, crc, emitted⟩ := h
  have nonempty : f.data ++ f.optData ≠ [] := List.length_pos_iff.mp (List.length_append ▸ announced)
  have noSync : crcFold (f.data ++ f.optData) ≠ 0x55 := crc
  have result : processBytes cfg p (frameBytes f) = wdcOk cfg (p.withPayload f) := by
    rw [processBytes_frameBytes_of_nonempty cfg limits nonempty st, processByte_of_wdc cfg _ rfl, if_neg noSync,
      if_pos (by rfl)]
  rw [result, wdcOk_outq, if_pos (show emits cfg (p.withPayload f).ptc = true from emitted),
    withPayload_payloadFrame p limits]
  exact ⟨rfl, rfl⟩

/-- A byte outside WDC emits nothing. -/
theorem processByte_outq_of_ne_wdc (cfg : Config) {p : Parser} (b : Byte) (st : p.st ≠ .wdc) :
    (processByte cfg p b).outq = p.outq :=
  (processByte_outq cfg p b).resolve_right fun emitted => st emitted.1

/-- R217, R218: a header that announces nothing leads out of WHC without a payload. -/
theorem processBytes_frameBytes_of_empty (cfg : Config) {p : Parser} {f : Frame} (limits : FrameWithinLimits f)
    (empty : f.data ++ f.optData = []) (st : p.st = .ws) : (processBytes cfg p (frameBytes f)).outq = p.outq := by
  obtain ⟨hi, lo, opt, hdata, hopt, header⟩ := headerBytes_eq f limits
  have total : (p.withHeader (headerBytes f)).headerTotal = 0 := by
    rw [headerTotal_of _ header, hdata, hopt, ← List.length_append, empty, List.length_nil]
  have dropped := processByte_of_whc cfg (p := p.withHeader (headerBytes f)) (crcFold (headerBytes f)) rfl
  rw [if_pos (by rfl), if_pos total] at dropped
  rw [processBytes_frameBytes_eq cfg f st, dropped, empty, processBytes_nil]
  split
  · exact processByte_outq_of_ne_wdc cfg _ PState.noConfusion
  · exact processByte_outq_of_ne_wdc cfg _ PState.noConfusion

/-- Settles O51: neither kind emits, so there is room, and FRAME.PARSE makes no such exception. -/
theorem twoKindsOfFrameAreNeverEmitted : Obligations.TwoKindsOfFrameAreNeverEmitted := by
  intro s t f running st limits kind
  have start := gapForce_st_of_ws s.cfg t st
  have silent : (readBytes s.cfg t (frameBytes f) s.parser).outq = s.parser.outq := by
    rw [readBytes_of_ne _ _ _ (frameBytes_ne_nil f), Parser.stamp_outq, ← gapForce_outq s.cfg t s.parser]
    by_cases empty : f.data ++ f.optData = []
    · exact processBytes_frameBytes_of_empty s.cfg limits empty start
    · rw [processBytes_frameBytes_of_sync s.cfg limits empty start (kind.resolve_left empty)]
      rfl
  exact ⟨_, commit_eq running (overfull_of_same silent), silent, exec_frameParse_frameBytes limits⟩

/-! ## Any cut into reads -/

/-- Reads without 0x55 leave a waiting parser waiting, and emit nothing. -/
theorem runReads_of_noSync (cfg : Config) {reads : List (Nat × ByteString)} {p : Parser} (st : p.st = .ws)
    (noSync : 0x55 ∉ readBytesOf reads) :
    (runReads cfg reads p).st = .ws ∧ (runReads cfg reads p).outq = p.outq := by
  induction reads generalizing p with
  | nil => exact ⟨st, rfl⟩
  | cons read reads ih =>
    obtain ⟨t, bytes⟩ := read
    rw [readBytesOf_cons, List.mem_append, not_or] at noSync
    obtain ⟨now, later⟩ := noSync
    rw [runReads_cons]
    by_cases empty : bytes = []
    · subst empty
      rw [readBytes_nil]
      exact ih st later
    · have skipped : readBytes cfg t bytes p = (gapForce cfg t p).stamp t := by
        rw [readBytes_of_ne cfg t p empty, processBytes_of_noSync cfg (gapForce_st_of_ws cfg t st) now]
      rw [skipped, ← gapForce_outq cfg t p]
      exact ih (gapForce_st_of_ws cfg t st) later

/-- The read with a frame's first byte, and the gap-free reads that bring the rest, emit the frame. -/
theorem runReads_frameBytes {cfg : Config} {p : Parser} {f : Frame} {t : Nat} {garbage front : ByteString}
    {late : List (Nat × ByteString)} (emittable : FrameEmittable cfg f) (start : (gapForce cfg t p).st = .ws)
    (noSync : 0x55 ∉ garbage) (begun : front ≠ []) (whole : front ++ readBytesOf late = frameBytes f)
    (free : gapFree cfg (some t) late = true) :
    (runReads cfg ((t, garbage ++ front) :: late) p).outq = p.outq ++ [f] ∧
      (runReads cfg ((t, garbage ++ front) :: late) p).st = .ws := by
  have first : readBytes cfg t (garbage ++ front) p =
      (processBytes cfg (gapForce cfg t p) front).withTime (some t) := by
    rw [readBytes_of_ne cfg t p (List.append_ne_nil_of_right_ne_nil _ begun), processBytes_append,
      processBytes_of_noSync cfg start noSync]
    rfl
  have folded : (runReads cfg ((t, garbage ++ front) :: late) p).withTime none =
      (processBytes cfg (gapForce cfg t p) (frameBytes f)).withTime none := by
    rw [runReads_cons, first, runReads_of_gapFree free, processBytes_withTime, ← processBytes_append, whole]
    rfl
  obtain ⟨queue, st⟩ := processBytes_frameBytes_of_emittable emittable start
  rw [gapForce_outq] at queue
  exact ⟨(congrArg Parser.outq folded).trans queue, (congrArg Parser.st folded).trans st⟩

/-- Settles O49: the early reads keep WaitSync and emit nothing, or there are none and the gap forces WaitSync; the rest
is `runReads_frameBytes`. -/
theorem frameIsEmittedOnceInAnyChunking : Obligations.FrameIsEmittedOnceInAnyChunking := by
  intro s f early late t garbage front running unbounded emittable start noSync begun whole free
  rw [List.mem_append, not_or] at noSync
  obtain ⟨earlyNoSync, garbageNoSync⟩ := noSync
  have before : (gapForce s.cfg t (runReads s.cfg early s.parser)).st = .ws ∧
      (runReads s.cfg early s.parser).outq = s.parser.outq := by
    obtain st | ⟨rfl, elapsed⟩ := start
    · obtain ⟨waiting, same⟩ := runReads_of_noSync s.cfg st earlyNoSync
      exact ⟨gapForce_st_of_ws s.cfg t waiting, same⟩
    · exact ⟨congrArg Parser.st (gapForce_of_elapsed elapsed), rfl⟩
  obtain ⟨waiting, same⟩ := before
  obtain ⟨queue, st⟩ := runReads_frameBytes emittable waiting garbageNoSync begun whole free
  rw [← runReads_append] at queue st
  exact ⟨_, execAll_readInstrs_of_unbounded _ running unbounded, same ▸ queue, st⟩

end Sys2Proof.Machine
end

section
/-! PROOF. Unit U5, the stream parser: what is emitted has arrived (44_stream_parser.md section 8). -/

namespace Sys2Proof.Machine

/-- The header of a frame whose lengths and packet type are latched. -/
def Parser.latchedHeader (p : Parser) : ByteString :=
  [p.dlen.extractLsb' 8 8, p.dlen.extractLsb' 0 8, p.olen, p.ptc]

/-- What the registers say of the bytes processed: in each state they end in the part of a frame that led there. -/
def Parser.Arrived (p : Parser) (bytes : ByteString) : Prop :=
  match p.st with
  | .ws => True
  | .wh | .whc => sync :: p.hbuf <:+ bytes
  | .wd | .wdc => sync :: p.latchedHeader ++ [crcFold p.latchedHeader] ++ p.pbuf <:+ bytes

theorem suffix_concat {a bytes : ByteString} (b : Byte) (h : a <:+ bytes) : a ++ [b] <:+ bytes ++ [b] := by
  obtain ⟨before, rfl⟩ := h
  exact ⟨before, (List.append_assoc ..).symm⟩

/-- R215, R216: the latched header is the one in the header buffer. -/
theorem latchedHeader_whcOk {p : Parser} (full : p.hbuf.length = 4) : (whcOk p).latchedHeader = p.hbuf := by
  match header : p.hbuf, full with
  | [h0, h1, h2, h3], _ =>
    have hi : (be16 h0 h1).extractLsb' 8 8 = h0 := by
      apply BitVec.eq_of_toNat_eq
      rw [BitVec.extractLsb'_toNat, be16_toNat, Nat.shiftRight_eq_div_pow]
      omega
    have lo : (be16 h0 h1).extractLsb' 0 8 = h1 := by
      apply BitVec.eq_of_toNat_eq
      rw [BitVec.extractLsb'_toNat, be16_toNat, Nat.shiftRight_eq_div_pow]
      omega
    rw [Parser.latchedHeader, whcOk, headerDataLen_of p header, headerOptLen_of p header, headerPacketType_of p header,
      hi, lo]

section
variable {cfg : Config} {p : Parser} {bytes : ByteString} (b : Byte)

theorem Parser.Arrived.of_ws (st : p.st = .ws) : p.Arrived bytes := by
  rw [Parser.Arrived, st]
  trivial

theorem Parser.Arrived.of_header (st : p.st = .wh ∨ p.st = .whc) (h : sync :: p.hbuf <:+ bytes) : p.Arrived bytes := by
  obtain st | st := st <;> rw [Parser.Arrived, st] <;> exact h

theorem Parser.Arrived.of_payload (st : p.st = .wd ∨ p.st = .wdc)
    (h : sync :: p.latchedHeader ++ [crcFold p.latchedHeader] ++ p.pbuf <:+ bytes) : p.Arrived bytes := by
  obtain st | st := st <;> rw [Parser.Arrived, st] <;> exact h

/-- A byte 0x55 that restarts the parser may begin a frame. -/
theorem Parser.arrived_restart (hb : b = 0x55) : p.restart.Arrived (bytes ++ [b]) :=
  .of_header (.inl rfl) (hb ▸ List.suffix_append ..)

theorem Parser.Arrived.whAcc (arrived : p.Arrived bytes) (st : p.st = .wh) : (whAcc b p).Arrived (bytes ++ [b]) := by
  rw [Parser.Arrived, st] at arrived
  have next : (Machine.whAcc b p).st = .wh ∨ (Machine.whAcc b p).st = .whc := by
    rw [Machine.whAcc, st]
    exact (ite_eq_or_eq _ _ _).symm
  exact .of_header next (suffix_concat b arrived)

/-- R216: the byte that accepts the header is the header's checksum. -/
theorem Parser.Arrived.whcOk (arrived : p.Arrived bytes) (st : p.st = .whc) (full : p.hbuf.length = 4)
    (crc : p.crc = crcFold p.hbuf) : (whcOk p).Arrived (bytes ++ [p.crc]) := by
  rw [Parser.Arrived, st] at arrived
  refine .of_payload (.inl rfl) ?_
  rw [latchedHeader_whcOk full, ← crc, show (Machine.whcOk p).pbuf = [] from rfl, List.append_nil]
  exact suffix_concat p.crc arrived

/-- R222: the bytes kept follow a 0x55 that was processed. -/
theorem Parser.Arrived.whcResyncBuf (arrived : p.Arrived bytes) (st : p.st = .whc) (full : p.hbuf.length = 4)
    (buffered : sync ∈ p.hbuf) : (whcResyncBuf b p).Arrived (bytes ++ [b]) := by
  rw [Parser.Arrived, st] at arrived
  obtain ⟨before, after, header, first⟩ := List.eq_append_cons_of_mem buffered
  have tail : sync :: after <:+ bytes := by
    rw [header] at arrived
    exact (List.suffix_append (sync :: before) (sync :: after)).trans arrived
  refine .of_header (ite_eq_or_eq _ _ _).symm ?_
  rw [whcResyncBuf_of_header b header first full]
  exact suffix_concat b tail

theorem Parser.Arrived.wdAcc (arrived : p.Arrived bytes) (st : p.st = .wd) : (wdAcc b p).Arrived (bytes ++ [b]) := by
  rw [Parser.Arrived, st] at arrived
  have next : (Machine.wdAcc b p).st = .wd ∨ (Machine.wdAcc b p).st = .wdc := by
    rw [Machine.wdAcc, st]
    exact (ite_eq_or_eq _ _ _).symm
  have longer := suffix_concat b arrived
  rw [List.append_assoc] at longer
  exact .of_payload next longer

/-- Every transition keeps what the registers say of the bytes. -/
theorem Parser.Arrived.processByte (arrived : p.Arrived bytes) (inv : p.StateInv) :
    (processByte cfg p b).Arrived (bytes ++ [b]) := by
  cases st : p.st with
  | ws => rw [processByte_of_ws cfg b st]; split_ifs with hb; exacts [arrived_restart b hb, .of_ws st]
  | wh => rw [processByte_of_wh cfg b st]; exact arrived.whAcc b st
  | whc =>
    rw [Parser.StateInv, st] at inv
    obtain ⟨full, crc⟩ := inv
    rw [processByte_of_whc cfg b st]
    split_ifs with same total hb buffered hb
    · exact .of_header (.inl rfl) (hb ▸ List.suffix_append ..)
    · exact .of_ws rfl
    · exact same ▸ arrived.whcOk st full crc
    · exact arrived.whcResyncBuf b st full buffered
    · exact arrived_restart b hb
    · exact .of_ws rfl
  | wd => rw [processByte_of_wd cfg b st]; exact arrived.wdAcc b st
  | wdc =>
    rw [processByte_of_wdc cfg b st]
    split_ifs with hb
    exacts [arrived_restart b hb, .of_ws rfl, .of_ws rfl]

/-- From WS, whatever the other registers hold, the rows of R230's table and `Arrived` hold behind any bytes. -/
theorem arrived_processBytes (cfg : Config) (st : p.st = .ws) (bytes : ByteString) :
    (processBytes cfg p bytes).StateInv ∧ (processBytes cfg p bytes).Arrived bytes := by
  induction bytes using List.reverseRecOn with
  | nil => exact ⟨.of_ws st, .of_ws st⟩
  | append_singleton bytes b ih =>
    obtain ⟨inv, arrived⟩ := ih
    rw [processBytes_concat]
    exact ⟨inv.processByte b cfg, arrived.processByte b inv⟩

end

/-- R229: a full payload buffer's Frame has the latched header. -/
theorem headerBytes_payloadFrame {p : Parser} (full : p.pbuf.length = p.payloadTotal) :
    headerBytes p.payloadFrame = p.latchedHeader := by
  have data : (p.pbuf.take p.dlen.toNat).length = p.dlen.toNat := by
    rw [List.length_take, full, Parser.payloadTotal, Nat.min_eq_left (Nat.le_add_right ..)]
  have opt : (p.pbuf.drop p.dlen.toNat).length = p.olen.toNat := by
    rw [List.length_drop, full, Parser.payloadTotal, Nat.add_sub_cancel_left]
  have olen : BitVec.ofNat 8 p.olen.toNat = p.olen := by rw [BitVec.ofNat_toNat, BitVec.setWidth_eq]
  rw [payloadFrame_eq p full, headerBytes, data, opt, olen]
  rfl

/-- In WDC the bytes processed and the payload checksum make up the serialization of the payload buffer's Frame. -/
theorem Parser.Arrived.frameBytes_payloadFrame {p : Parser} {bytes : ByteString} (arrived : p.Arrived bytes)
    (inv : p.StateInv) (st : p.st = .wdc) : frameBytes p.payloadFrame <:+ bytes ++ [p.crc] := by
  rw [Parser.Arrived, st] at arrived
  rw [Parser.StateInv, st] at inv
  obtain ⟨full, -, crc⟩ := inv
  have payload : p.payloadFrame.data ++ p.payloadFrame.optData = p.pbuf := by
    rw [payloadFrame_eq p full, List.take_append_drop]
  rw [frameBytes_phases, headerBytes_payloadFrame full, payload, ← crc]
  exact suffix_concat p.crc arrived

/-- With `drop` a type that is emitted is known (R231). -/
theorem known_of_emits_of_drop {cfg : Config} {ptc : Byte} (emitted : emits cfg ptc = true)
    (drop : cfg.spUnknownPt = .drop) : ptc ∈ cfg.ptTable.map Prod.fst := by
  rw [emits, drop, Bool.or_eq_true] at emitted
  exact (ptKnown_iff cfg ptc).mp (emitted.resolve_right (by decide))

/-- Settles O48: the byte that emits is the payload checksum in WDC, and the Frame is the payload buffer's. -/
theorem emittedFramesArriveWhole : Obligations.EmittedFramesArriveWhole := by
  intro cfg p bytes b f st emission
  obtain ⟨inv, arrived⟩ := arrived_processBytes cfg st bytes
  rw [processBytes_concat] at emission
  obtain same | ⟨wdc, noSync, crc, emitted, appended⟩ := processByte_outq cfg (processBytes cfg p bytes) b
  · simp [same] at emission
  · obtain rfl : (processBytes cfg p bytes).payloadFrame = f := by
      simpa using List.append_cancel_left (appended.symm.trans emission)
    have emittable := inv.payloadFrame_emittable wdc (crc ▸ noSync) emitted
    refine ⟨crc ▸ arrived.frameBytes_payloadFrame inv wdc, emittable, fun s hcfg drop => ?_⟩
    subst hcfg
    exact ⟨exec_frameSerialize_of_limits _ s emittable.1,
      exec_frameParse_frameBytes emittable.1 (known_of_emits_of_drop emitted drop)⟩

end Sys2Proof.Machine
end

section
/-! PROOF. Unit U3, the code enumerations: how many codes are known, and the codes the source gives. -/

namespace Sys2Proof.Machine

/-- Every byte stands once among the numbers below 256. -/
theorem countP_bytes (known : Byte → Bool) (codes : List Byte) (distinct : codes.Nodup)
    (h : ∀ c, known c = true ↔ c ∈ codes) :
    ((List.range 256).countP fun n => known (BitVec.ofNat 8 n)) = codes.length := by
  have bytes : ((List.range 256).map (BitVec.ofNat 8)).Nodup := by
    refine List.nodup_range.map_on fun m hm n hn same => ?_
    have := congrArg BitVec.toNat same
    rw [List.mem_range] at hm hn
    rwa [BitVec.toNat_ofNat, BitVec.toNat_ofNat, Nat.mod_eq_of_lt hm, Nat.mod_eq_of_lt hn] at this
  have all (c : Byte) : c ∈ (List.range 256).map (BitVec.ofNat 8) :=
    List.mem_map.mpr ⟨c.toNat, List.mem_range.mpr c.isLt, by rw [BitVec.ofNat_toNat, BitVec.setWidth_eq]⟩
  have members : (((List.range 256).map (BitVec.ofNat 8)).filter known).Perm codes :=
    (List.perm_ext_iff_of_nodup (bytes.filter _) distinct).mpr fun c => by
      rw [List.mem_filter, h c, and_iff_right (all c)]
  rw [← members.length_eq, ← List.countP_eq_length_filter, List.countP_map]
  rfl

/-- Settles O14: the codes of a table are distinct, and an admissible configuration fixes the rows asked for. -/
theorem sourceGivenCodesHold : Obligations.SourceGivenCodesHold := by
  intro s admissible
  obtain ⟨⟨ptSize, ptDistinct, -⟩, pt01, -, pt0A, pt08, -, ⟨rorgSize, rorgDistinct, -⟩, -, rorgA5, rorgD2, rorg00, -⟩ :=
    admissible
  refine ⟨?_, ?_, ?_, ?_, ?_, ?_, ?_, ?_⟩
  · rw [countP_bytes _ _ ptDistinct (ptKnown_iff s.cfg), List.length_map, ptSize]
  · rw [countP_bytes _ _ rorgDistinct (rorgKnown_iff s.cfg), List.length_map, rorgSize]
  · rw [exec_ptParseByte, ptKnown, pt01]; rfl
  · rw [exec_ptParseByte, ptKnown, pt08]; rfl
  · rw [exec_ptFormat, formatCode, pt0A]
  · rw [exec_rorgParseByte, rorgKnown, rorgD2]; rfl
  · rw [exec_rorgParseByte, rorgKnown, rorg00]; rfl
  · rw [exec_rorgFormat, formatCode, rorgA5]

end Sys2Proof.Machine
end

section
/-! PROOF. Unit U6, the ERP1 packet codec: its two round trips. -/

namespace Sys2Proof.Machine

/-- R261: what a completed ERP1.DECODE tells of its frame, and what it answers. -/
theorem eq_erp1Fields_of_exec_erp1Decode {p : Erp1Packet} {f : Frame} {s : State}
    (h : exec (.erp1Decode f) s = .next { s with result := some (.ok (.packet p)) }) :
    f.packetType = ptRadioErp1 ∧ 6 ≤ f.data.length ∧ 7 ≤ f.optData.length ∧ p = erp1Fields f := by
  rw [exec_erp1Decode, erp1Decode] at h
  split_ifs at h with type data opt _ <;> cases h
  exact ⟨not_not.mp type, Nat.not_lt.mp data, Nat.not_lt.mp opt, rfl⟩

/-- R89: six or more bytes are a code, user data, four identifier bytes and a status. -/
theorem exists_erp1Data {data : ByteString} (h : 6 ≤ data.length) :
    ∃ (rorg a0 a1 a2 a3 status : Byte) (user : ByteString), data = [rorg] ++ user ++ [a0, a1, a2, a3, status] := by
  match data, h with
  | rorg :: tail, h =>
    rw [List.length_cons] at h
    have last : (tail.drop (tail.length - 5)).length = 5 := by rw [List.length_drop]; omega
    match five : tail.drop (tail.length - 5), last with
    | [a0, a1, a2, a3, status], _ =>
      refine ⟨rorg, a0, a1, a2, a3, status, tail.take (tail.length - 5), ?_⟩
      rw [← five, List.append_assoc, List.take_append_drop]
      rfl

/-- R90: seven or more bytes are a counter, four identifier bytes, two more and a rest. -/
theorem exists_erp1OptData {optData : ByteString} (h : 7 ≤ optData.length) :
    ∃ (sub d0 d1 d2 d3 rssi sec : Byte) (more : ByteString), optData = [sub, d0, d1, d2, d3, rssi, sec] ++ more := by
  match optData, h with
  | sub :: d0 :: d1 :: d2 :: d3 :: rssi :: sec :: more, _ => exact ⟨sub, d0, d1, d2, d3, rssi, sec, more, rfl⟩

/-- The frame of the record that two layouts give: `user_data` and both identifiers are kept. -/
theorem erp1Frame_erp1Fields {f : Frame} (data : 6 ≤ f.data.length) (opt : 7 ≤ f.optData.length) :
    erp1Frame (erp1Fields f) = ⟨ptRadioErp1, f.data, f.optData.take 5 ++ [0xFF, 0x03]⟩ := by
  obtain ⟨type, data, optData⟩ := f
  obtain ⟨rorg, a0, a1, a2, a3, status, user, rfl⟩ := exists_erp1Data data
  obtain ⟨sub, d0, d1, d2, d3, rssi, sec, more, rfl⟩ := exists_erp1OptData opt
  rw [erp1Fields_layout, erp1Frame, wordBytes_be32, wordBytes_be32, List.append_assoc _ [a0, a1, a2, a3]]
  rfl

theorem be32_wordBytes (id : Word) :
    be32 (id.extractLsb' 24 8) (id.extractLsb' 16 8) (id.extractLsb' 8 8) (id.extractLsb' 0 8) = id := by
  rw [be32_eq_bigEndian]
  exact (congrArg (BitVec.ofNat 32) (bigEndian_wordBytes id)).trans (by rw [BitVec.ofNat_toNat, BitVec.setWidth_eq])

/-- The record of a packet's frame: the two constants of R267 in place of two fields. -/
theorem erp1Fields_erp1Frame (p : Erp1Packet) :
    erp1Fields (erp1Frame p) = { p with rssi := 0xFF, securityLevel := 0x03 } := by
  have layout := erp1Fields_layout ptRadioErp1 p.rorg (p.senderId.extractLsb' 24 8) (p.senderId.extractLsb' 16 8)
    (p.senderId.extractLsb' 8 8) (p.senderId.extractLsb' 0 8) p.status p.subTelNum (p.destinationId.extractLsb' 24 8)
    (p.destinationId.extractLsb' 16 8) (p.destinationId.extractLsb' 8 8) (p.destinationId.extractLsb' 0 8)
    0xFF 0x03 p.userData []
  rw [be32_wordBytes, be32_wordBytes] at layout
  rw [← layout, erp1Frame, List.append_assoc _ (wordBytes p.senderId)]
  rfl

/-- Settles O55: `erp1Fields_erp1Frame` one way, and `erp1Frame_erp1Fields` the other. -/
theorem erp1RoundTripReplacesTwoBytes : Obligations.Erp1RoundTripReplacesTwoBytes := by
  refine fun s => ⟨fun p f encoded accepted => ?_, fun p f g decoded encoded => ?_⟩
  · obtain ⟨-, rfl⟩ := (exec_erp1Encode_frame_iff p f s).mp encoded
    have data : 6 ≤ (erp1Frame p).data.length := by rw [erp1Frame_data_length]; exact Nat.le_add_left ..
    have passes : ¬ (s.cfg.erp1StrictRorg = true ∧ byteAt (erp1Frame p).data 0 ∉ s.cfg.rorgTable.map Prod.fst) := by
      rwa [not_and_or, not_not, Bool.not_eq_true]
    rw [exec_erp1Decode, erp1Decode_of_lengths s.cfg rfl data (Nat.le_refl 7), if_neg passes, erp1Fields_erp1Frame]
    rfl
  · obtain ⟨type, data, opt, rfl⟩ := eq_erp1Fields_of_exec_erp1Decode decoded
    obtain ⟨-, rfl⟩ := (exec_erp1Encode_frame_iff _ g s).mp encoded
    rw [erp1Frame_erp1Fields data opt]
    refine ⟨type.symm, rfl, rfl, fun same => ?_, fun ⟨_, last⟩ => ?_⟩
    · have last := List.append_cancel_left
        ((List.take_append_drop 5 f.optData).trans (congrArg Frame.optData same).symm)
      have two := congrArg List.length last
      rw [List.length_drop] at two
      exact ⟨Nat.le_antisymm (Nat.sub_le_iff_le_add.mp two.le) opt, last⟩
    · rw [← last, List.take_append_drop, ← type]

end Sys2Proof.Machine
end
